-- ==== Sys2Proof/Word.lean ====
section
/-! DEFINITION. The bit widths the spec names (00_scope.md R7, R9): bit 0 is the least significant bit of every value and
all values are unsigned. -/

namespace Sys2Proof

/-- One byte, and one input symbol (`SYM_W` = 8, R7). -/
abbrev Byte := BitVec 8

/-- A decoded symbol value `v` (`V_W` = 5, R7). -/
abbrev SymVal := BitVec 5

/-- A Format K command word (30_encoding.md R91). -/
abbrev CommandWord := BitVec 16

/-- A counter, or a time in seconds (`CTR_W` = `T_W` = 64, R7). -/
abbrev Word64 := BitVec 64

/-- The eight counter bytes, the message of the HMAC request (`MSG_BYTES`, R7). -/
abbrev Message := Vector Byte 8

/-- The twenty digest bytes (`DIGEST_BYTES`, R7). -/
abbrev Digest := Vector Byte 20

end Sys2Proof
end

