-- ==== Sys2Proof/Config.lean ====
section
/-! DEFINITION. What an implementation fixes: the keyed hash and the two open capacities (00_scope.md R7, R8). -/

namespace Sys2Proof

/-- The HMAC primitive (R8): a total function of a key of any length and a message of any length, with 20 bytes as result.
It has no body, so whatever is proved holds for every such function; on the hardware it is HMAC-SHA1.
DESIGN CHOICE (log 5), unsafe: a primitive that stalls or answers differently for equal inputs has runs this model lacks,
which the spec itself rules out (R8, R271). -/
opaque Config.hmac : List Byte → List Byte → Digest

/-- The open parameters of R7. `none` is unbounded, the spec's default. They stand in State as plain data that no step
writes, so that a claim about all states is a claim for every capacity. DESIGN CHOICE (log 4), safe. -/
structure Config.Params where
  /-- `B32_OUT_CAP`, capacity of `B32.OUT` in bytes. -/
  b32OutCap : Option Nat
  /-- `KEY_CAP`, maximum key length in bytes. -/
  keyCap    : Option Nat
  deriving DecidableEq, Repr

/-- The spec's default for both capacities: unbounded. -/
def Config.Params.unbounded : Config.Params := { b32OutCap := none, keyCap := none }

end Sys2Proof
end

