-- ==== Sys2Proof/Syntax.lean ====
section
/-! DEFINITION. The instructions: one constructor per row of spec/opcode_table.json (30_encoding.md R92, R106). Format K
rows are command words; Format S rows are the symbols a `B32.PUSH` carries in its `imm8` field. -/

namespace Sys2Proof

/-- The 65 rows of the opcode table, in its order. -/
inductive Instr where
  /-- `B32.START`: open a decode (R120). -/
  | b32Start
  /-- `B32.PUSH c`: present one input character (R121). -/
  | b32Push (c : Byte)
  /-- `B32.END`: end of input (R127). -/
  | b32End
  /-- `OTP.HOTP n`: compute an HOTP code of `n` digits (R160). -/
  | otpHotp (n : BitVec 8)
  /-- `OTP.TOTP`: compute a TOTP code (R200). -/
  | otpTotp
  -- uppercase letters (R122)
  | symA
  | symB
  | symC
  | symD
  | symE
  | symF
  | symG
  | symH
  | symI
  | symJ
  | symK
  | symL
  | symM
  | symN
  | symO
  | symP
  | symQ
  | symR
  | symS
  | symT
  | symU
  | symV
  | symW
  | symX
  | symY
  | symZ
  -- lowercase letters (R123)
  | symLowA
  | symLowB
  | symLowC
  | symLowD
  | symLowE
  | symLowF
  | symLowG
  | symLowH
  | symLowI
  | symLowJ
  | symLowK
  | symLowL
  | symLowM
  | symLowN
  | symLowO
  | symLowP
  | symLowQ
  | symLowR
  | symLowS
  | symLowT
  | symLowU
  | symLowV
  | symLowW
  | symLowX
  | symLowY
  | symLowZ
  -- digits (R124)
  | sym2
  | sym3
  | sym4
  | sym5
  | sym6
  | sym7
  /-- `SYM.PAD`: the padding sentinel `=` (R125). -/
  | symPad
  /-- `SYM.INVALID`: any of the 197 codes of no other row (R126). -/
  | symInvalid (c : Byte)
  deriving DecidableEq, Repr

/-- Why a 16-bit word is reserved (30_encoding.md R100, R101): its unit, its operation within a unit, or a non-zero `imm8`
in a command that has no immediate. -/
inductive ReservedReason where
  | unit
  | op
  | imm8
  deriving DecidableEq, Repr

/-- A word of one of the two formats (R90): a 16-bit command word, or the 8-bit symbol inside a `B32.PUSH`. -/
inductive EncodedWord where
  | command (w : CommandWord)
  | symbol (c : Byte)
  deriving DecidableEq, Repr

end Sys2Proof
end

