-- ==== Sys2Proof/Machine/State.lean ====
section
/-! DEFINITION. The state of the machine: the registers of the two units (10_state.md R22 to R39), and, as plain data, the
outside world the units react to (the operand bundle, what happens next, the open parameters). There is no memory, no
program counter and no general register (R20, R21, 20_memory.md R60, R61; log 16). -/

namespace Sys2Proof.Machine

/-! ## Register types -/

/-- `B32.PH` (R22): RUN 0, DONE 1, FAIL 2. The value 3 never occurs, so the type has no such value (U11, log 13). -/
inductive B32Phase where
  | run
  | done
  | fail
  deriving DecidableEq, Repr

/-- `OTP.PH` (R28): IDLE 0, ENC 1, HMAC 2, TRUNC 3, DIGIT 4, DONE 5, FAIL 6. The value 7 never occurs (U11, log 13). -/
inductive OtpPhase where
  | idle
  | enc
  | hmac
  | trunc
  | digit
  | done
  | fail
  deriving DecidableEq, Repr

/-- The two error kinds and "no error", one numbering for both units (60_exceptions.md R220, R221). -/
inductive ECode where
  | ok
  | decodeError
  | invalidParameter
  deriving DecidableEq, Repr

/-- `B32.ECODE` (R27, R47): 0 or 1. -/
inductive B32Ecode where
  | ok
  | decodeError
  deriving DecidableEq, Repr

/-- `OTP.ECODE` (R39, R47): 0 or 2. -/
inductive OtpEcode where
  | ok
  | invalidParameter
  deriving DecidableEq, Repr

/-- `OTP.N` (R31, R47): 6, 7 or 8. -/
inductive DigitLen where
  | six
  | seven
  | eight
  deriving DecidableEq, Repr

/-! ## The units -/

/-- The registers of the B32 unit (R22 to R25, R27). -/
structure B32 where
  ph    : B32Phase
  fill  : Fin 8
  acc   : Byte
  out   : List Byte
  ecode : B32Ecode
  deriving DecidableEq, Repr

/-- The registers of the OTP unit (R28 to R39), each with exactly the values of R47. `CLEN` is 0, 6, 7 or 8: `none` is 0, and
`some n` the length of a code. A cell of `DIG` is 0 to 9. -/
structure Otp where
  ph    : OtpPhase
  ctr   : Word64
  key   : List Byte
  n     : DigitLen
  msg   : Message
  hash  : Digest
  off   : BitVec 4
  p     : BitVec 31
  q     : BitVec 31
  i     : Fin 9
  dig   : Vector (Fin 10) 8
  code  : Vector Byte 8
  clen  : Option DigitLen
  ecode : OtpEcode
  deriving DecidableEq, Repr

/-! ## The outside world -/

/-- The operand bundle at the command port (30_encoding.md R99): whole values without a byte order (20_memory.md R67). -/
structure Bundle where
  key : List Byte
  ctr : Word64
  t0  : Word64
  ivl : Word64
  now : Word64
  deriving DecidableEq, Repr

/-- Where the host takes the operand `key` from (30_encoding.md R104): bytes of its own, or `B32.OUT` as it reads then (20_memory.md R78). -/
inductive KeySource where
  | bytes (key : List Byte)
  | b32Out
  deriving DecidableEq, Repr

/-- What the host presents beside a command word (R99, R104). -/
structure Operands where
  key : KeySource
  ctr : Word64
  t0  : Word64
  ivl : Word64
  now : Word64
  deriving DecidableEq, Repr

/-- The named read ports of the block (10_state.md R27, R38, R39, R41). -/
inductive Port where
  | b32Ph
  | b32Ecode
  | b32Len
  | b32Out
  | otpPh
  | otpEcode
  | otpClen
  | otpCode
  deriving DecidableEq, Repr

/-- One thing the outside world does to the block: the host's actions (R4, R104), a turn given to the OTP unit and its HMAC
primitive, and reset. A list of them is a program together with an interleaving of the agents (log 1). -/
inductive Event where
  /-- The host issues a command word; `none` leaves the operand bundle as it stands (B32 commands take none, R99). -/
  | issue (w : CommandWord) (ops : Option Operands)
  /-- `wait b32`: the host waits until `B32.PH` is not RUN (R104). -/
  | waitB32
  /-- `wait otp`: the host waits until `OTP.PH` is DONE or FAIL (R104). -/
  | waitOtp
  /-- The OTP unit, or the HMAC primitive in phase HMAC, takes its enabled stage before the host's next action. -/
  | otpTurn
  /-- The host writes a read-only port, which has no meaning (R41). -/
  | writePort (p : Port)
  /-- Reset is applied (70_reset_and_hazards.md R260). -/
  | reset
  deriving DecidableEq, Repr

/-- The state. `b32` and `otp` are the block; `bundle`, `pending` and `params` are the model's own fields for the outside
(logs 1, 4, 8). -/
structure State where
  b32     : B32
  otp     : Otp
  bundle  : Bundle
  pending : List Event
  params  : Config.Params
  deriving DecidableEq, Repr

/-! ## The reasons a step can stop -/

/-- There is no fault: the block has two recoverable error results and raises nothing else (60_exceptions.md R220, R229), so
this type has no constructor and no step can end in one (log 14, DEDUCED, safe). -/
inductive Fault
  deriving DecidableEq, Repr

/-- Actions to which the spec gives no meaning and which a model refuses (00_scope.md R11). Each is safe: the model stops
where real hardware may go on. -/
inductive Refusal where
  /-- Raised by `exec` for an instruction without a meaning; no arm raises it. Safe. -/
  | notModelled (mnemonic : String)
  /-- Raised by `step` for a reserved command word (30_encoding.md R101). Safe. -/
  | reservedWord (w : CommandWord) (why : ReservedReason)
  /-- Raised by `OTP.HOTP` and `OTP.TOTP` while the OTP unit is busy (70_reset_and_hazards.md R266). Safe. -/
  | otpBusy
  /-- Raised by a data symbol that emits when `B32.OUT` is at a finite `B32_OUT_CAP` (40_base32_decoder.md R137, U5). Safe. -/
  | outCapacity
  /-- Raised by `OTP.HOTP` and `OTP.TOTP` when the key exceeds a finite `KEY_CAP` (U5, D32). Safe. -/
  | keyCapacity
  /-- Raised by `step` when the host writes a read-only port (10_state.md R41, U6). Safe. -/
  | portWrite (p : Port)
  /-- Raised by the OTP unit in phase DIGIT with `I > N`, where no stage is enabled; no run reaches it (log 10). Safe. -/
  | noStageEnabled
  deriving DecidableEq, Repr

/-- What a step, a meaning or a stage answers. -/
abbrev Result := Host.Outcome State Fault Refusal

/-! ## Reset (10_state.md R46) -/

/-- The B32 unit after reset: exactly the state `B32.START` produces (70_reset_and_hazards.md R261). -/
def B32.reset : B32 := { ph := .run, fill := 0, acc := 0#8, out := [], ecode := .ok }

/-- The OTP unit after reset. R46 gives PH, ECODE, CLEN and CODE. The other registers are unspecified; the values here are
DESIGN CHOICE (log 3), unsafe: a proof could lean on them although the hardware may hold any value. -/
def Otp.reset : Otp :=
  { ph := .idle, ctr := 0#64, key := [], n := .six, msg := Vector.replicate 8 0#8, hash := Vector.replicate 20 0#8,
    off := 0#4, p := 0#31, q := 0#31, i := 0, dig := Vector.replicate 8 0,
    code := Vector.replicate 8 0#8, clen := none, ecode := .ok }

/-- An operand port that nothing drives yet (the model's own value, log 8). -/
def Bundle.empty : Bundle := { key := [], ctr := 0#64, t0 := 0#64, ivl := 0#64, now := 0#64 }

/-- The machine right after reset, with nothing pending outside and the spec's default parameters. -/
def State.reset : State :=
  { b32 := B32.reset, otp := Otp.reset, bundle := Bundle.empty, pending := [], params := Config.Params.unbounded }

end Sys2Proof.Machine
end

