-- ==== Sys2Proof/Machine/Operands.lean ====
section
/-! DEFINITION. Operand assembly: case fold, alphabet, symbol classes, digit length and the operand bundle (30_encoding.md
R94 to R99). -/

namespace Sys2Proof.Machine

/-- `upcase` (R94): only 0x61 to 0x7A change, by minus 0x20. -/
def upcase (c : Byte) : Byte := if 0x61#8 ≤ c ∧ c ≤ 0x7A#8 then c - 0x20#8 else c

/-- `val` (R95): `A` to `Z` are 0 to 25, `2` to `7` are 26 to 31; no other character has a value. The in-order reading and
the ASCII codes are marked by the spec as general knowledge (R93, R95; log 20). -/
def val? (u : Byte) : Option SymVal :=
  if 0x41#8 ≤ u ∧ u ≤ 0x5A#8 then some ((u - 0x41#8).setWidth 5)
  else if 0x32#8 ≤ u ∧ u ≤ 0x37#8 then some ((u - 0x32#8 + 26#8).setWidth 5)
  else none

/-- The padding sentinel `=` (R96). -/
def padCode : Byte := 0x3D#8

/-- The symbol classes (R97). -/
inductive SymClass where
  | data (v : SymVal)
  | pad
  | invalid
  deriving DecidableEq, Repr

/-- The class of a symbol, in R121's order of tests: fold, then `=`, then table. -/
def classify (c : Byte) : SymClass :=
  if upcase c = padCode then .pad
  else match val? (upcase c) with
    | some v => .data v
    | none   => .invalid

/-- The digit length as a number. -/
def DigitLen.toNat : DigitLen → Nat
  | .six   => 6
  | .seven => 7
  | .eight => 8

/-- The digit-length immediate (R98): 6, 7 and 8 are legal, the other 253 values are encodings of an invalid parameter. -/
def digitLen? (n : BitVec 8) : Option DigitLen :=
  if n = 6#8 then some .six
  else if n = 7#8 then some .seven
  else if n = 8#8 then some .eight
  else none

/-- The bytes of the operand `key`: the host's own, or `B32.OUT` unchanged (20_memory.md R66, R78). -/
def KeySource.resolve (k : KeySource) (u : B32) : List Byte :=
  match k with
  | .bytes b => b
  | .b32Out  => u.out

/-- The bundle the host presents, sampled in the accepting step (R99, 70_reset_and_hazards.md R268). -/
def Operands.resolve (o : Operands) (u : B32) : Bundle :=
  { key := o.key.resolve u, ctr := o.ctr, t0 := o.t0, ivl := o.ivl, now := o.now }

end Sys2Proof.Machine
end

