-- ==== Sys2Proof/Machine/Flags.lean ====
section
/-! DEFINITION. The condition-like state: there are no arithmetic flags (10_state.md R40), only the phases and error codes,
their numeric codes, and the conditions read from them. -/

namespace Sys2Proof.Machine

/-- The code of `B32.PH` (R22, R41). -/
def B32Phase.code : B32Phase → BitVec 2
  | .run  => 0#2
  | .done => 1#2
  | .fail => 2#2

/-- The code of `OTP.PH` (R28, R41). -/
def OtpPhase.code : OtpPhase → BitVec 3
  | .idle  => 0#3
  | .enc   => 1#3
  | .hmac  => 2#3
  | .trunc => 3#3
  | .digit => 4#3
  | .done  => 5#3
  | .fail  => 6#3

/-- The code of an error kind (60_exceptions.md R221); 3 is unused. -/
def ECode.code : ECode → BitVec 2
  | .ok               => 0#2
  | .decodeError      => 1#2
  | .invalidParameter => 2#2

/-- What `B32.ECODE` records. -/
def B32Ecode.kind : B32Ecode → ECode
  | .ok          => .ok
  | .decodeError => .decodeError

/-- What `OTP.ECODE` records. -/
def OtpEcode.kind : OtpEcode → ECode
  | .ok               => .ok
  | .invalidParameter => .invalidParameter

/-- The number `OTP.CLEN` holds (R38). -/
def Otp.codeLength (u : Otp) : Nat :=
  match u.clen with
  | none   => 0
  | some n => n.toNat

/-- The busy phases: a call is in progress (R28). Commands are accepted in the other three. -/
def OtpPhase.busy : OtpPhase → Bool
  | .enc | .hmac | .trunc | .digit => true
  | .idle | .done | .fail          => false

/-- What `wait b32` waits for (30_encoding.md R104). -/
def B32.finished (u : B32) : Bool := u.ph != .run

/-- What `wait otp` waits for (R104). -/
def Otp.finished (u : Otp) : Bool := u.ph == .done || u.ph == .fail

/-- The request outstanding at the HMAC primitive (10_state.md R44): `(KEY, MSG)`, there exactly in phase HMAC. -/
def Otp.request (u : Otp) : Option (List Byte × Message) := if u.ph = .hmac then some (u.key, u.msg) else none

/-- What a read port answers: a number or bytes. -/
inductive PortValue where
  | number (n : Nat)
  | bytes (b : List Byte)
  deriving DecidableEq, Repr

/-- A host read (R41): it has no side effect (20_memory.md R71), so it is a function of the state and not a step (log 19). -/
def readPort (p : Port) (s : State) : PortValue :=
  match p with
  | .b32Ph    => .number s.b32.ph.code.toNat
  | .b32Ecode => .number s.b32.ecode.kind.code.toNat
  | .b32Len   => .number s.b32.out.length
  | .b32Out   => .bytes s.b32.out
  | .otpPh    => .number s.otp.ph.code.toNat
  | .otpEcode => .number s.otp.ecode.kind.code.toNat
  | .otpClen  => .number s.otp.codeLength
  | .otpCode  => .bytes s.otp.code.toList

end Sys2Proof.Machine
end

