-- ==== Sys2Proof/Machine/Ops.lean ====
section
/-! DEFINITION. The named operations the meanings share: field updates, the byte-order primitives (00_scope.md R10), the
accumulator actions and the symbol classes (40_base32_decoder.md R122 to R138), the two error entries (60_exceptions.md R228)
and the opening of an OTP call (41_hotp_engine.md R160). -/

namespace Sys2Proof.Machine

/-! ## Field updates -/

def State.setB32 (u : B32) (s : State) : State := { s with b32 := u }

def State.setOtp (u : Otp) (s : State) : State := { s with otp := u }

def State.setBundle (b : Bundle) (s : State) : State := { s with bundle := b }

def State.setPending (l : List Event) (s : State) : State := { s with pending := l }

/-! ## Byte order -/

/-- `MemWrite(MSG, 0, 8, CTR)`: the eight bytes of a 64-bit value, most significant first (20_memory.md R64). -/
def bigEndian8 (c : Word64) : Message := Vector.ofFn fun i : Fin 8 => c.extractLsb' (56 - 8 * i.val) 8

/-- `MemRead(HASH, OFF, 4)`: four digest bytes as one big-endian value (R65). `OFF` is at most 15, so no read is out of
bounds (R68). -/
def window (h : Digest) (off : BitVec 4) : BitVec 32 :=
  have := off.isLt
  h[off.toNat]'(by omega) ++ h[off.toNat + 1]'(by omega) ++ h[off.toNat + 2]'(by omega) ++ h[off.toNat + 3]'(by omega)

/-! ## The accumulator -/

/-- What an action leaves: the new `ACC` and `FILL`, and the byte it emits. -/
structure Merge where
  acc     : Byte
  fill    : Fin 8
  emitted : Option Byte
  deriving DecidableEq, Repr

/-- The eight actions S0 to S7 (R128 to R135), one per value of `FILL`; every value assigned to `ACC` keeps its low 8 bits
(10_state.md R24). -/
def accumulate (fill : Fin 8) (acc : Byte) (v : SymVal) : Merge :=
  let b : Byte := v.setWidth 8
  match fill with
  | 0 => { acc := acc ||| (b <<< 3), fill := 5, emitted := none }
  | 1 => { acc := acc ||| (b <<< 2), fill := 6, emitted := none }
  | 2 => { acc := acc ||| (b <<< 1), fill := 7, emitted := none }
  | 3 => { acc := 0#8,     fill := 0, emitted := some (acc ||| b) }
  | 4 => { acc := b <<< 7, fill := 1, emitted := some (acc ||| (b >>> 1)) }
  | 5 => { acc := b <<< 6, fill := 2, emitted := some (acc ||| (b >>> 2)) }
  | 6 => { acc := b <<< 5, fill := 3, emitted := some (acc ||| (b >>> 3)) }
  | 7 => { acc := b <<< 4, fill := 4, emitted := some (acc ||| (b >>> 4)) }

/-- Whether a size `k` is within an open capacity; `none` is unbounded (00_scope.md R7). -/
def withinCap (cap : Option Nat) (k : Nat) : Bool :=
  match cap with
  | none   => true
  | some m => k ≤ m

/-- `emit` (R137) of what an action completed. -/
def B32.merged (u : B32) (m : Merge) : B32 := { u with acc := m.acc, fill := m.fill, out := u.out ++ m.emitted.toList }

/-- `discard()` (R138). -/
def B32.discard (u : B32) : B32 := { u with acc := 0#8, fill := 0 }

/-! ## Error entry (60_exceptions.md R228)

Nothing is saved, no mode changes and control goes nowhere; the failing command has no other effect. The way back is the
opening of the next call (R230): `B32.opened`, `Otp.withdrawn`. -/

/-- `raise DecodeError`. -/
def raiseDecodeError (s : State) : State :=
  s.setB32 { s.b32 with ph := .fail, ecode := .decodeError, out := [], acc := 0#8, fill := 0 }

/-- `raise InvalidParameter`. -/
def raiseInvalidParameter (s : State) : State :=
  s.setOtp { s.otp with ph := .fail, ecode := .invalidParameter, clen := none, code := Vector.replicate 8 0#8 }

/-! ## B32 operations -/

/-- The registers `B32.START` writes (R120). -/
def B32.opened : B32 := { ph := .run, fill := 0, acc := 0#8, out := [], ecode := .ok }

/-- While `PH` is DONE or FAIL a push or an end changes no register (R144). -/
def whileRunning (s : State) (r : Result) : Result := if s.b32.ph = .run then r else .next s

/-- A data symbol of value `v` (R122 to R124): action S<FILL>. A byte that would exceed a finite `B32_OUT_CAP` has no
meaning and the whole push is refused (R137, U5; log 17). -/
def pushData (v : SymVal) (s : State) : Result :=
  let m := accumulate s.b32.fill s.b32.acc v
  let u := s.b32.merged m
  whileRunning s
    (if m.emitted = none ∨ withinCap s.params.b32OutCap u.out.length then .next (s.setB32 u) else .refused .outCapacity)

/-- The padding sentinel (R125). -/
def pushPad (s : State) : Result := whileRunning s (.next (s.setB32 { s.b32.discard with ph := .done }))

/-- An invalid symbol (R126). -/
def pushInvalid (s : State) : Result := whileRunning s (.next (raiseDecodeError s))

/-! ## OTP operations -/

/-- The previous result is withdrawn when a command is accepted (R160, R200). -/
def Otp.withdrawn (u : Otp) : Otp := { u with clen := none, code := Vector.replicate 8 0#8, ecode := .ok }

/-- Acceptance of a validated call: `KEY`, `CTR` and `N` are latched and stage ENC is next (R160, R200). The key's capacity is
looked at only here, since a failing call does not read the key (R172; log 11). -/
def openCall (key : List Byte) (ctr : Word64) (n : DigitLen) (s : State) : Result :=
  if withinCap s.params.keyCap key.length then
    .next (s.setOtp { s.otp.withdrawn with key := key, ctr := ctr, n := n, ph := .enc })
  else .refused .keyCapacity

/-- A command to the OTP unit is accepted only in IDLE, DONE and FAIL (10_state.md R28, 70_reset_and_hazards.md R266). -/
def whenIdle (s : State) (r : Result) : Result := if s.otp.ph.busy then .refused .otpBusy else r

/-- Reset writes every register of both units (R260); a call in progress is abandoned, and with it the outstanding HMAC
request, since the answer is taken only in phase HMAC (R262; log 9). What the outside does next is untouched. -/
def applyReset (s : State) : State := (s.setB32 B32.reset).setOtp Otp.reset

end Sys2Proof.Machine
end

