-- ==== Sys2Proof/Machine/Command.lean ====
section
/-! DEFINITION. The Format K commands: what each does in the step that accepts it (40_base32_decoder.md R120, R121, R127,
41_hotp_engine.md R160, 42_totp.md R200). -/

namespace Sys2Proof.Machine

/-! ## B32 unit -/

/-- `B32.START` (R120): accepted in every phase; opens a decode. -/
def execB32Start (s : State) : Result := .next (s.setB32 B32.opened)

/-- `B32.PUSH c` (R121): the symbol is classified only in phase RUN (R100); in the other phases nothing happens (R144). -/
def execB32Push (c : Byte) (s : State) : Result :=
  whileRunning s
    (match classify c with
    | .pad     => pushPad s
    | .data v  => pushData v s
    | .invalid => pushInvalid s)

/-- `B32.END` (R127): in phase RUN, discard and DONE. -/
def execB32End (s : State) : Result := whileRunning s (.next (s.setB32 { s.b32.discard with ph := .done }))

/-! ## OTP unit -/

/-- `OTP.HOTP n` (R160): validation of `n` comes first (R172), then `KEY`, `CTR`, `N` are latched. -/
def execOtpHotp (n : BitVec 8) (s : State) : Result :=
  whenIdle s
    (match digitLen? n with
    | none   => .next (raiseInvalidParameter s)
    | some d => openCall s.bundle.key s.bundle.ctr d s)

/-- `OTP.TOTP` (R200): both checks precede the subtraction and the division (R206); the counter is the floor quotient
(R201) and the code has six digits. -/
def execOtpTotp (s : State) : Result :=
  whenIdle s
    (if s.bundle.ivl = 0#64 ∨ s.bundle.now < s.bundle.t0 then .next (raiseInvalidParameter s)
    else openCall s.bundle.key ((s.bundle.now - s.bundle.t0) / s.bundle.ivl) .six s)

end Sys2Proof.Machine
end

