-- ==== Sys2Proof/Machine/Symbol.lean ====
section
/-! DEFINITION. The Format S rows: what each symbol of the opcode table does when a `B32.PUSH` brings it (40_base32_decoder.md
R122 to R126). The value `v` of each row is the table's. In phases DONE and FAIL a pushed symbol changes no register
(R144; log 6, DEDUCED, safe). -/

namespace Sys2Proof.Machine

/-! ## Uppercase letters (R122) -/

/-- `SYM.A`, `v` = 0 (R122). -/
def execSymA (s : State) : Result := pushData 0#5 s

/-- `SYM.B`, `v` = 1 (R122). -/
def execSymB (s : State) : Result := pushData 1#5 s

/-- `SYM.C`, `v` = 2 (R122). -/
def execSymC (s : State) : Result := pushData 2#5 s

/-- `SYM.D`, `v` = 3 (R122). -/
def execSymD (s : State) : Result := pushData 3#5 s

/-- `SYM.E`, `v` = 4 (R122). -/
def execSymE (s : State) : Result := pushData 4#5 s

/-- `SYM.F`, `v` = 5 (R122). -/
def execSymF (s : State) : Result := pushData 5#5 s

/-- `SYM.G`, `v` = 6 (R122). -/
def execSymG (s : State) : Result := pushData 6#5 s

/-- `SYM.H`, `v` = 7 (R122). -/
def execSymH (s : State) : Result := pushData 7#5 s

/-- `SYM.I`, `v` = 8 (R122). -/
def execSymI (s : State) : Result := pushData 8#5 s

/-- `SYM.J`, `v` = 9 (R122). -/
def execSymJ (s : State) : Result := pushData 9#5 s

/-- `SYM.K`, `v` = 10 (R122). -/
def execSymK (s : State) : Result := pushData 10#5 s

/-- `SYM.L`, `v` = 11 (R122). -/
def execSymL (s : State) : Result := pushData 11#5 s

/-- `SYM.M`, `v` = 12 (R122). -/
def execSymM (s : State) : Result := pushData 12#5 s

/-- `SYM.N`, `v` = 13 (R122). -/
def execSymN (s : State) : Result := pushData 13#5 s

/-- `SYM.O`, `v` = 14 (R122). -/
def execSymO (s : State) : Result := pushData 14#5 s

/-- `SYM.P`, `v` = 15 (R122). -/
def execSymP (s : State) : Result := pushData 15#5 s

/-- `SYM.Q`, `v` = 16 (R122). -/
def execSymQ (s : State) : Result := pushData 16#5 s

/-- `SYM.R`, `v` = 17 (R122). -/
def execSymR (s : State) : Result := pushData 17#5 s

/-- `SYM.S`, `v` = 18 (R122). -/
def execSymS (s : State) : Result := pushData 18#5 s

/-- `SYM.T`, `v` = 19 (R122). -/
def execSymT (s : State) : Result := pushData 19#5 s

/-- `SYM.U`, `v` = 20 (R122). -/
def execSymU (s : State) : Result := pushData 20#5 s

/-- `SYM.V`, `v` = 21 (R122). -/
def execSymV (s : State) : Result := pushData 21#5 s

/-- `SYM.W`, `v` = 22 (R122). -/
def execSymW (s : State) : Result := pushData 22#5 s

/-- `SYM.X`, `v` = 23 (R122). -/
def execSymX (s : State) : Result := pushData 23#5 s

/-- `SYM.Y`, `v` = 24 (R122). -/
def execSymY (s : State) : Result := pushData 24#5 s

/-- `SYM.Z`, `v` = 25 (R122). -/
def execSymZ (s : State) : Result := pushData 25#5 s

/-! ## Lowercase letters (R123) -/

/-- `SYM.a`, `v` = 0 (R123). -/
def execSymLowA (s : State) : Result := pushData 0#5 s

/-- `SYM.b`, `v` = 1 (R123). -/
def execSymLowB (s : State) : Result := pushData 1#5 s

/-- `SYM.c`, `v` = 2 (R123). -/
def execSymLowC (s : State) : Result := pushData 2#5 s

/-- `SYM.d`, `v` = 3 (R123). -/
def execSymLowD (s : State) : Result := pushData 3#5 s

/-- `SYM.e`, `v` = 4 (R123). -/
def execSymLowE (s : State) : Result := pushData 4#5 s

/-- `SYM.f`, `v` = 5 (R123). -/
def execSymLowF (s : State) : Result := pushData 5#5 s

/-- `SYM.g`, `v` = 6 (R123). -/
def execSymLowG (s : State) : Result := pushData 6#5 s

/-- `SYM.h`, `v` = 7 (R123). -/
def execSymLowH (s : State) : Result := pushData 7#5 s

/-- `SYM.i`, `v` = 8 (R123). -/
def execSymLowI (s : State) : Result := pushData 8#5 s

/-- `SYM.j`, `v` = 9 (R123). -/
def execSymLowJ (s : State) : Result := pushData 9#5 s

/-- `SYM.k`, `v` = 10 (R123). -/
def execSymLowK (s : State) : Result := pushData 10#5 s

/-- `SYM.l`, `v` = 11 (R123). -/
def execSymLowL (s : State) : Result := pushData 11#5 s

/-- `SYM.m`, `v` = 12 (R123). -/
def execSymLowM (s : State) : Result := pushData 12#5 s

/-- `SYM.n`, `v` = 13 (R123). -/
def execSymLowN (s : State) : Result := pushData 13#5 s

/-- `SYM.o`, `v` = 14 (R123). -/
def execSymLowO (s : State) : Result := pushData 14#5 s

/-- `SYM.p`, `v` = 15 (R123). -/
def execSymLowP (s : State) : Result := pushData 15#5 s

/-- `SYM.q`, `v` = 16 (R123). -/
def execSymLowQ (s : State) : Result := pushData 16#5 s

/-- `SYM.r`, `v` = 17 (R123). -/
def execSymLowR (s : State) : Result := pushData 17#5 s

/-- `SYM.s`, `v` = 18 (R123). -/
def execSymLowS (s : State) : Result := pushData 18#5 s

/-- `SYM.t`, `v` = 19 (R123). -/
def execSymLowT (s : State) : Result := pushData 19#5 s

/-- `SYM.u`, `v` = 20 (R123). -/
def execSymLowU (s : State) : Result := pushData 20#5 s

/-- `SYM.v`, `v` = 21 (R123). -/
def execSymLowV (s : State) : Result := pushData 21#5 s

/-- `SYM.w`, `v` = 22 (R123). -/
def execSymLowW (s : State) : Result := pushData 22#5 s

/-- `SYM.x`, `v` = 23 (R123). -/
def execSymLowX (s : State) : Result := pushData 23#5 s

/-- `SYM.y`, `v` = 24 (R123). -/
def execSymLowY (s : State) : Result := pushData 24#5 s

/-- `SYM.z`, `v` = 25 (R123). -/
def execSymLowZ (s : State) : Result := pushData 25#5 s

/-! ## Digits (R124) -/

/-- `SYM.2`, `v` = 26 (R124). -/
def execSym2 (s : State) : Result := pushData 26#5 s

/-- `SYM.3`, `v` = 27 (R124). -/
def execSym3 (s : State) : Result := pushData 27#5 s

/-- `SYM.4`, `v` = 28 (R124). -/
def execSym4 (s : State) : Result := pushData 28#5 s

/-- `SYM.5`, `v` = 29 (R124). -/
def execSym5 (s : State) : Result := pushData 29#5 s

/-- `SYM.6`, `v` = 30 (R124). -/
def execSym6 (s : State) : Result := pushData 30#5 s

/-- `SYM.7`, `v` = 31 (R124). -/
def execSym7 (s : State) : Result := pushData 31#5 s

/-! ## The sentinel and the default row -/

/-- `SYM.PAD` (R125): discard the leftover bits and stop; `OUT` becomes the result. -/
def execSymPad (s : State) : Result := pushPad s

/-- `SYM.INVALID` (R126): DecodeError, whatever the code. -/
def execSymInvalid (_c : Byte) (s : State) : Result := pushInvalid s

end Sys2Proof.Machine
end

