-- ==== Sys2Proof/Machine/Dispatch.lean ====
section
/-! DEFINITION. One arm per row of the opcode table, each a direct call of its meaning. -/

namespace Sys2Proof.Machine

def exec (i : Instr) (s : State) : Host.Outcome State Fault Refusal :=
  match i with
  | .b32Start => Sys2Proof.Machine.execB32Start s
  | .b32Push c => Sys2Proof.Machine.execB32Push c s
  | .b32End => Sys2Proof.Machine.execB32End s
  | .otpHotp n => Sys2Proof.Machine.execOtpHotp n s
  | .otpTotp => Sys2Proof.Machine.execOtpTotp s
  | .symA => Sys2Proof.Machine.execSymA s
  | .symB => Sys2Proof.Machine.execSymB s
  | .symC => Sys2Proof.Machine.execSymC s
  | .symD => Sys2Proof.Machine.execSymD s
  | .symE => Sys2Proof.Machine.execSymE s
  | .symF => Sys2Proof.Machine.execSymF s
  | .symG => Sys2Proof.Machine.execSymG s
  | .symH => Sys2Proof.Machine.execSymH s
  | .symI => Sys2Proof.Machine.execSymI s
  | .symJ => Sys2Proof.Machine.execSymJ s
  | .symK => Sys2Proof.Machine.execSymK s
  | .symL => Sys2Proof.Machine.execSymL s
  | .symM => Sys2Proof.Machine.execSymM s
  | .symN => Sys2Proof.Machine.execSymN s
  | .symO => Sys2Proof.Machine.execSymO s
  | .symP => Sys2Proof.Machine.execSymP s
  | .symQ => Sys2Proof.Machine.execSymQ s
  | .symR => Sys2Proof.Machine.execSymR s
  | .symS => Sys2Proof.Machine.execSymS s
  | .symT => Sys2Proof.Machine.execSymT s
  | .symU => Sys2Proof.Machine.execSymU s
  | .symV => Sys2Proof.Machine.execSymV s
  | .symW => Sys2Proof.Machine.execSymW s
  | .symX => Sys2Proof.Machine.execSymX s
  | .symY => Sys2Proof.Machine.execSymY s
  | .symZ => Sys2Proof.Machine.execSymZ s
  | .symLowA => Sys2Proof.Machine.execSymLowA s
  | .symLowB => Sys2Proof.Machine.execSymLowB s
  | .symLowC => Sys2Proof.Machine.execSymLowC s
  | .symLowD => Sys2Proof.Machine.execSymLowD s
  | .symLowE => Sys2Proof.Machine.execSymLowE s
  | .symLowF => Sys2Proof.Machine.execSymLowF s
  | .symLowG => Sys2Proof.Machine.execSymLowG s
  | .symLowH => Sys2Proof.Machine.execSymLowH s
  | .symLowI => Sys2Proof.Machine.execSymLowI s
  | .symLowJ => Sys2Proof.Machine.execSymLowJ s
  | .symLowK => Sys2Proof.Machine.execSymLowK s
  | .symLowL => Sys2Proof.Machine.execSymLowL s
  | .symLowM => Sys2Proof.Machine.execSymLowM s
  | .symLowN => Sys2Proof.Machine.execSymLowN s
  | .symLowO => Sys2Proof.Machine.execSymLowO s
  | .symLowP => Sys2Proof.Machine.execSymLowP s
  | .symLowQ => Sys2Proof.Machine.execSymLowQ s
  | .symLowR => Sys2Proof.Machine.execSymLowR s
  | .symLowS => Sys2Proof.Machine.execSymLowS s
  | .symLowT => Sys2Proof.Machine.execSymLowT s
  | .symLowU => Sys2Proof.Machine.execSymLowU s
  | .symLowV => Sys2Proof.Machine.execSymLowV s
  | .symLowW => Sys2Proof.Machine.execSymLowW s
  | .symLowX => Sys2Proof.Machine.execSymLowX s
  | .symLowY => Sys2Proof.Machine.execSymLowY s
  | .symLowZ => Sys2Proof.Machine.execSymLowZ s
  | .sym2 => Sys2Proof.Machine.execSym2 s
  | .sym3 => Sys2Proof.Machine.execSym3 s
  | .sym4 => Sys2Proof.Machine.execSym4 s
  | .sym5 => Sys2Proof.Machine.execSym5 s
  | .sym6 => Sys2Proof.Machine.execSym6 s
  | .sym7 => Sys2Proof.Machine.execSym7 s
  | .symPad => Sys2Proof.Machine.execSymPad s
  | .symInvalid c => Sys2Proof.Machine.execSymInvalid c s

end Sys2Proof.Machine
end

