-- ==== Sys2Proof/WellFormed.lean ====
section
/-! DEFINITION. Which instructions are well formed. Every operand byte of `B32.PUSH` and `OTP.HOTP` is a valid encoding
(30_encoding.md R97, R98); `SYM.INVALID` stands only for the 197 codes that no other Format S row matches. -/

namespace Sys2Proof

/-- The codes that reach class INVALID, the ranges of R97's table: 0x00-0x31, 0x38-0x3C, 0x3E-0x40, 0x5B-0x60, 0x7B-0xFF. -/
def isInvalidCode (c : Byte) : Bool :=
  c ≤ 0x31#8 || (0x38#8 ≤ c && c ≤ 0x3C#8) || (0x3E#8 ≤ c && c ≤ 0x40#8) || (0x5B#8 ≤ c && c ≤ 0x60#8) || 0x7B#8 ≤ c

/-- Well-formedness of an instruction: the one operand that a row restricts is the code of `SYM.INVALID`. -/
def Instr.wf : Instr → Bool
  | .b32Start | .b32Push _ | .b32End | .otpHotp _ | .otpTotp | .symA | .symB | .symC
  | .symD | .symE | .symF | .symG | .symH | .symI | .symJ | .symK
  | .symL | .symM | .symN | .symO | .symP | .symQ | .symR | .symS
  | .symT | .symU | .symV | .symW | .symX | .symY | .symZ | .symLowA
  | .symLowB | .symLowC | .symLowD | .symLowE | .symLowF | .symLowG | .symLowH | .symLowI
  | .symLowJ | .symLowK | .symLowL | .symLowM | .symLowN | .symLowO | .symLowP | .symLowQ
  | .symLowR | .symLowS | .symLowT | .symLowU | .symLowV | .symLowW | .symLowX | .symLowY
  | .symLowZ | .sym2 | .sym3 | .sym4 | .sym5 | .sym6 | .sym7 | .symPad
    => true
  | .symInvalid c => isInvalidCode c

end Sys2Proof
end

