-- ==== Sys2Proof/Decode.lean ====
section
/-! DEFINITION. Decoding and encoding of both formats (30_encoding.md R90 to R101, R106). Decoding is total: a reserved
command word is rejected by name, and every symbol code has a row (SYM.INVALID is the default). -/

namespace Sys2Proof

/-! ## Format K -/

/-- `unit`, bits [15:12] of a command word (R91). -/
def unitField (w : CommandWord) : BitVec 4 := w.extractLsb' 12 4

/-- `op`, bits [11:8] (R91). -/
def opField (w : CommandWord) : BitVec 4 := w.extractLsb' 8 4

/-- `imm8`, bits [7:0] (R91). -/
def imm8Field (w : CommandWord) : Byte := w.extractLsb' 0 8

/-- A command word from its three fields (R91). -/
def commandWord (unit op : BitVec 4) (imm8 : Byte) : CommandWord := unit ++ op ++ imm8

/-- A command without an immediate: a non-zero `imm8` makes the word reserved (R100 step 2, R101). -/
def requireZeroImm (imm8 : Byte) (i : Instr) : Except ReservedReason Instr :=
  if imm8 = 0#8 then .ok i else .error .imm8

/-- The decoding order of R100: the pair (unit, op) first, then the zero `imm8` where one is required. -/
def decodeCommand (w : CommandWord) : Except ReservedReason Instr :=
  if unitField w = 1#4 then
    if opField w = 0#4 then requireZeroImm (imm8Field w) .b32Start
    else if opField w = 1#4 then .ok (.b32Push (imm8Field w))
    else if opField w = 2#4 then requireZeroImm (imm8Field w) .b32End
    else .error .op
  else if unitField w = 2#4 then
    if opField w = 0#4 then .ok (.otpHotp (imm8Field w))
    else if opField w = 1#4 then requireZeroImm (imm8Field w) .otpTotp
    else .error .op
  else .error .unit

/-! ## Format S -/

/-- Rows `SYM.A` to `SYM.Z` of the opcode table: the code each matches (R93, R106). -/
def upperRows : List (Byte × Instr) :=
  [(0x41#8, .symA), (0x42#8, .symB), (0x43#8, .symC), (0x44#8, .symD), (0x45#8, .symE),
   (0x46#8, .symF), (0x47#8, .symG), (0x48#8, .symH), (0x49#8, .symI), (0x4A#8, .symJ),
   (0x4B#8, .symK), (0x4C#8, .symL), (0x4D#8, .symM), (0x4E#8, .symN), (0x4F#8, .symO),
   (0x50#8, .symP), (0x51#8, .symQ), (0x52#8, .symR), (0x53#8, .symS), (0x54#8, .symT),
   (0x55#8, .symU), (0x56#8, .symV), (0x57#8, .symW), (0x58#8, .symX), (0x59#8, .symY),
   (0x5A#8, .symZ)]

/-- Rows `SYM.a` to `SYM.z`. -/
def lowerRows : List (Byte × Instr) :=
  [(0x61#8, .symLowA), (0x62#8, .symLowB), (0x63#8, .symLowC), (0x64#8, .symLowD), (0x65#8, .symLowE),
   (0x66#8, .symLowF), (0x67#8, .symLowG), (0x68#8, .symLowH), (0x69#8, .symLowI), (0x6A#8, .symLowJ),
   (0x6B#8, .symLowK), (0x6C#8, .symLowL), (0x6D#8, .symLowM), (0x6E#8, .symLowN), (0x6F#8, .symLowO),
   (0x70#8, .symLowP), (0x71#8, .symLowQ), (0x72#8, .symLowR), (0x73#8, .symLowS), (0x74#8, .symLowT),
   (0x75#8, .symLowU), (0x76#8, .symLowV), (0x77#8, .symLowW), (0x78#8, .symLowX), (0x79#8, .symLowY),
   (0x7A#8, .symLowZ)]

/-- Rows `SYM.2` to `SYM.7`. -/
def digitRows : List (Byte × Instr) :=
  [(0x32#8, .sym2), (0x33#8, .sym3), (0x34#8, .sym4), (0x35#8, .sym5), (0x36#8, .sym6),
   (0x37#8, .sym7)]

/-- The Format S rows that match one code each; `SYM.INVALID` applies when none of them does (R106). -/
def symbolRows : List (Byte × Instr) := upperRows ++ lowerRows ++ digitRows ++ [(0x3D#8, .symPad)]

/-- The row of a symbol code: a decoder from the table alone (R106). -/
def decodeSymbol (c : Byte) : Instr :=
  match symbolRows.lookup c with
  | some i => i
  | none   => .symInvalid c

/-- Decode a word of either format. -/
def decodeWord : EncodedWord → Except ReservedReason Instr
  | .command w => decodeCommand w
  | .symbol c  => .ok (decodeSymbol c)

/-! ## The encoder -/

/-- The word of an instruction, from the spec's encodings (R92, R93 and the `match` column of the opcode table). -/
def encode : Instr → EncodedWord
  | .b32Start => .command (commandWord 1#4 0#4 0#8)
  | .b32Push c => .command (commandWord 1#4 1#4 c)
  | .b32End => .command (commandWord 1#4 2#4 0#8)
  | .otpHotp n => .command (commandWord 2#4 0#4 n)
  | .otpTotp => .command (commandWord 2#4 1#4 0#8)
  | .symA => .symbol 0x41#8
  | .symB => .symbol 0x42#8
  | .symC => .symbol 0x43#8
  | .symD => .symbol 0x44#8
  | .symE => .symbol 0x45#8
  | .symF => .symbol 0x46#8
  | .symG => .symbol 0x47#8
  | .symH => .symbol 0x48#8
  | .symI => .symbol 0x49#8
  | .symJ => .symbol 0x4A#8
  | .symK => .symbol 0x4B#8
  | .symL => .symbol 0x4C#8
  | .symM => .symbol 0x4D#8
  | .symN => .symbol 0x4E#8
  | .symO => .symbol 0x4F#8
  | .symP => .symbol 0x50#8
  | .symQ => .symbol 0x51#8
  | .symR => .symbol 0x52#8
  | .symS => .symbol 0x53#8
  | .symT => .symbol 0x54#8
  | .symU => .symbol 0x55#8
  | .symV => .symbol 0x56#8
  | .symW => .symbol 0x57#8
  | .symX => .symbol 0x58#8
  | .symY => .symbol 0x59#8
  | .symZ => .symbol 0x5A#8
  | .symLowA => .symbol 0x61#8
  | .symLowB => .symbol 0x62#8
  | .symLowC => .symbol 0x63#8
  | .symLowD => .symbol 0x64#8
  | .symLowE => .symbol 0x65#8
  | .symLowF => .symbol 0x66#8
  | .symLowG => .symbol 0x67#8
  | .symLowH => .symbol 0x68#8
  | .symLowI => .symbol 0x69#8
  | .symLowJ => .symbol 0x6A#8
  | .symLowK => .symbol 0x6B#8
  | .symLowL => .symbol 0x6C#8
  | .symLowM => .symbol 0x6D#8
  | .symLowN => .symbol 0x6E#8
  | .symLowO => .symbol 0x6F#8
  | .symLowP => .symbol 0x70#8
  | .symLowQ => .symbol 0x71#8
  | .symLowR => .symbol 0x72#8
  | .symLowS => .symbol 0x73#8
  | .symLowT => .symbol 0x74#8
  | .symLowU => .symbol 0x75#8
  | .symLowV => .symbol 0x76#8
  | .symLowW => .symbol 0x77#8
  | .symLowX => .symbol 0x78#8
  | .symLowY => .symbol 0x79#8
  | .symLowZ => .symbol 0x7A#8
  | .sym2 => .symbol 0x32#8
  | .sym3 => .symbol 0x33#8
  | .sym4 => .symbol 0x34#8
  | .sym5 => .symbol 0x35#8
  | .sym6 => .symbol 0x36#8
  | .sym7 => .symbol 0x37#8
  | .symPad => .symbol 0x3D#8
  | .symInvalid c => .symbol c

/-- The bits of an encoded word as a number, bit 0 the least significant. -/
def EncodedWord.bits : EncodedWord → Nat
  | .command w => w.toNat
  | .symbol c  => c.toNat

/-- The `match` and `mask` columns of spec/opcode_table.json. -/
def Instr.matchMask : Instr → Nat × Nat
  | .b32Start => (0x1000, 0xFFFF)
  | .b32Push _ => (0x1100, 0xFF00)
  | .b32End => (0x1200, 0xFFFF)
  | .otpHotp _ => (0x2000, 0xFF00)
  | .otpTotp => (0x2100, 0xFFFF)
  | .symA => (0x41, 0xFF)
  | .symB => (0x42, 0xFF)
  | .symC => (0x43, 0xFF)
  | .symD => (0x44, 0xFF)
  | .symE => (0x45, 0xFF)
  | .symF => (0x46, 0xFF)
  | .symG => (0x47, 0xFF)
  | .symH => (0x48, 0xFF)
  | .symI => (0x49, 0xFF)
  | .symJ => (0x4A, 0xFF)
  | .symK => (0x4B, 0xFF)
  | .symL => (0x4C, 0xFF)
  | .symM => (0x4D, 0xFF)
  | .symN => (0x4E, 0xFF)
  | .symO => (0x4F, 0xFF)
  | .symP => (0x50, 0xFF)
  | .symQ => (0x51, 0xFF)
  | .symR => (0x52, 0xFF)
  | .symS => (0x53, 0xFF)
  | .symT => (0x54, 0xFF)
  | .symU => (0x55, 0xFF)
  | .symV => (0x56, 0xFF)
  | .symW => (0x57, 0xFF)
  | .symX => (0x58, 0xFF)
  | .symY => (0x59, 0xFF)
  | .symZ => (0x5A, 0xFF)
  | .symLowA => (0x61, 0xFF)
  | .symLowB => (0x62, 0xFF)
  | .symLowC => (0x63, 0xFF)
  | .symLowD => (0x64, 0xFF)
  | .symLowE => (0x65, 0xFF)
  | .symLowF => (0x66, 0xFF)
  | .symLowG => (0x67, 0xFF)
  | .symLowH => (0x68, 0xFF)
  | .symLowI => (0x69, 0xFF)
  | .symLowJ => (0x6A, 0xFF)
  | .symLowK => (0x6B, 0xFF)
  | .symLowL => (0x6C, 0xFF)
  | .symLowM => (0x6D, 0xFF)
  | .symLowN => (0x6E, 0xFF)
  | .symLowO => (0x6F, 0xFF)
  | .symLowP => (0x70, 0xFF)
  | .symLowQ => (0x71, 0xFF)
  | .symLowR => (0x72, 0xFF)
  | .symLowS => (0x73, 0xFF)
  | .symLowT => (0x74, 0xFF)
  | .symLowU => (0x75, 0xFF)
  | .symLowV => (0x76, 0xFF)
  | .symLowW => (0x77, 0xFF)
  | .symLowX => (0x78, 0xFF)
  | .symLowY => (0x79, 0xFF)
  | .symLowZ => (0x7A, 0xFF)
  | .sym2 => (0x32, 0xFF)
  | .sym3 => (0x33, 0xFF)
  | .sym4 => (0x34, 0xFF)
  | .sym5 => (0x35, 0xFF)
  | .sym6 => (0x36, 0xFF)
  | .sym7 => (0x37, 0xFF)
  | .symPad => (0x3D, 0xFF)
  | .symInvalid _ => (0x00, 0x00)

/-! ## Words as the opcode table numbers them -/

/-- The word the opcode table's `nbits` low bits stand for. Format K rows have 16 bits. Format S rows have 8 bits by the
spec's words (R90, R93); spec/98_reader.md says that the spec's words win over the bit fields its reader added, so the
wider widths it gives some `SYM` rows, and a word with no bit above bit 7, are read as symbols.
DESIGN CHOICE (log 7), safe: only the two functions that serve the opcode table use it, `step` never does. -/
def tableWord (nbits w : Nat) : EncodedWord :=
  if nbits = 16 ∧ 0x100 ≤ w then .command (BitVec.ofNat 16 w) else .symbol (BitVec.ofNat 8 w)

/-- The instruction the decoder reads from a word of the opcode table; none where it refuses. -/
def decodeTableWord (nbits w : Nat) : Option Instr := (decodeWord (tableWord nbits w)).toOption

/-- The command word that brings a word of the opcode table to the block: a symbol travels only in the `imm8` field of a
`B32.PUSH` (R60, R90). -/
def EncodedWord.asCommand : EncodedWord → CommandWord
  | .command w => w
  | .symbol c  => commandWord 1#4 1#4 c

end Sys2Proof
end

