-- ==== Sys2Proof/Machine/Stage.lean ====
section
/-! DEFINITION. The stages of the OTP unit, one step each (41_hotp_engine.md R161 to R165). Stage HMAC is the step of the
HMAC primitive. -/

namespace Sys2Proof.Machine

/-- Stage ENC (R161): the counter as 8 bytes, big-endian; the request is then outstanding. -/
def stageEnc (u : Otp) : Otp := { u with msg := bigEndian8 u.ctr, ph := .hmac }

/-- Stage HMAC (R162): the primitive's answer to `(KEY, MSG)`. -/
def stageHmac (u : Otp) : Otp := { u with hash := Config.hmac u.key u.msg.toList, ph := .trunc }

/-- `OFF`, the low nibble of the last digest byte (R163). -/
def truncOffset (h : Digest) : BitVec 4 := h[19].setWidth 4

/-- `P` = `W & 0x7FFFFFFF` = `W[30:0]` (R163). -/
def truncValue (h : Digest) : BitVec 31 := (window h (truncOffset h)).setWidth 31

/-- Stage TRUNC (R163), dynamic truncation. -/
def stageTrunc (u : Otp) : Otp :=
  { u with off := truncOffset u.hash, p := truncValue u.hash, q := truncValue u.hash, i := 0, ph := .digit }

/-- The digit length is at most 8, so `DIG[I]` with `I < N` is in bounds (20_memory.md R68). -/
theorem DigitLen.toNat_le (n : DigitLen) : n.toNat ≤ 8 := by cases n <;> decide

/-- Stage DIGIT (R164), enabled while `I < N`: one `mod 10` and one `div 10`. -/
def stageDigit (u : Otp) (h : u.i.val < u.n.toNat) : Otp :=
  have := u.n.toNat_le
  { u with
    dig := u.dig.set u.i.val ⟨u.q.toNat % 10, Nat.mod_lt _ (by decide)⟩ (by omega)
    q   := u.q / 10#31
    i   := ⟨u.i.val + 1, by omega⟩ }

/-- The character of a digit: ASCII `0x30 + d` (10_state.md R38, D17). -/
def digitChar (d : Fin 10) : Byte := 0x30#8 + BitVec.ofNat 8 d.val

/-- `CODE` (R165): the digits reversed, most significant first, then zeros. -/
def rendered (n : DigitLen) (dig : Vector (Fin 10) 8) : Vector Byte 8 :=
  Vector.ofFn fun j : Fin 8 =>
    if j.val < n.toNat then digitChar (dig[n.toNat - 1 - j.val]'(by have := n.toNat_le; omega)) else 0#8

/-- Stage RENDER (R165), enabled when `I = N`. -/
def stageRender (u : Otp) : Otp :=
  { u with code := rendered u.n u.dig, clen := some u.n, ph := .done }

/-- The enabled stage of the OTP unit runs (R175: each is enabled by the previous one and none depends on the host). In IDLE,
DONE and FAIL no stage is enabled and nothing changes. In DIGIT with `I > N`, which no run reaches, the spec enables no
stage and the model refuses (log 10). -/
def otpStage (s : State) : Result :=
  match s.otp.ph with
  | .enc   => .next (s.setOtp (stageEnc s.otp))
  | .hmac  => .next (s.setOtp (stageHmac s.otp))
  | .trunc => .next (s.setOtp (stageTrunc s.otp))
  | .digit =>
    if h : s.otp.i.val < s.otp.n.toNat then .next (s.setOtp (stageDigit s.otp h))
    else if s.otp.i.val = s.otp.n.toNat then .next (s.setOtp (stageRender s.otp))
    else .refused .noStageEnabled
  | .idle | .done | .fail => .next s

end Sys2Proof.Machine
end

