-- ==== Sys2Proof/Machine/HostPort.lean ====
section
/-! DEFINITION. How the outside reaches the block: taking the next event, presenting the operand bundle, fetching and
decoding a command word, waiting, and the assembler's commands (00_scope.md R4, R11, 30_encoding.md R100, R104, R105). -/

namespace Sys2Proof.Machine

/-- The host presents operands beside a command word (R99); `none` leaves the port as it stands. -/
def presentOperands (ops : Option Operands) (s : State) : State :=
  match ops with
  | none   => s
  | some o => s.setBundle (o.resolve s.b32)

/-- `wait` (R104): once the condition holds the host goes on; until then it issues nothing and only the OTP unit can move.
A wait that nothing will ever end changes nothing, which is no error (70_reset_and_hazards.md R269; log 12). -/
def waitUntil (ready : Bool) (rest : List Event) (s : State) : Result :=
  if ready then .next (s.setPending rest) else otpStage s

/-- What a step does first: a command word that decoded, with the state it runs in, or an outcome already settled. -/
inductive Fetched where
  | run (i : Instr) (s : State)
  | settled (r : Result)

/-- Take the next event. With none pending, the OTP unit runs its enabled stage, or, when it is not busy, the block rests
unchanged (log 2). A command word is decoded by R100; a reserved one and a write to a read-only port have no meaning (R11,
R41, R101; log 15). -/
def fetch (s : State) : Fetched :=
  match s.pending with
  | [] => .settled (otpStage s)
  | .issue w ops :: rest =>
    match decodeCommand w with
    | .ok i      => .run i (presentOperands ops (s.setPending rest))
    | .error why => .settled (.refused (.reservedWord w why))
  | .waitB32 :: rest     => .settled (waitUntil s.b32.finished rest s)
  | .waitOtp :: rest     => .settled (waitUntil s.otp.finished rest s)
  | .otpTurn :: rest     => .settled (otpStage (s.setPending rest))
  | .writePort p :: _    => .settled (.refused (.portWrite p))
  | .reset :: rest       => .settled (.next (applyReset (s.setPending rest)))

/-- Put a command word at the port as the host's next action, with the operand bundle as it stands. -/
def issueNext (w : CommandWord) (s : State) : State := s.setPending (.issue w none :: s.pending)

/-! ## Assembler (R104, R105) -/

/-- One line of a program: the commands, the host directives and the pseudo-instructions. -/
inductive AsmLine where
  | b32Start
  | b32Push (c : Byte)
  | b32End
  | otpHotp (n : BitVec 8) (ctr : Word64) (key : KeySource)
  | otpTotp (t0 ivl now : Word64) (key : KeySource)
  | waitB32
  | waitOtp
  | b32Str (text : List Byte)
  | decode (text : List Byte)
  | hotp (n : BitVec 8) (ctr : Word64) (key : KeySource)
  | totp (t0 ivl now : Word64) (key : KeySource)
  deriving DecidableEq, Repr

/-- `b32.push c` (R104): word 0x1100 + c, no operands. -/
def pushEvent (c : Byte) : Event := .issue (commandWord 1#4 1#4 c) none

/-- `b32.start`; the pushes of `b32.str`; `b32.end` (R105). -/
def decodeEvents (text : List Byte) : List Event :=
  .issue (commandWord 1#4 0#4 0#8) none :: (text.map pushEvent ++ [.issue (commandWord 1#4 2#4 0#8) none])

/-- `otp.hotp` with its operands (R104); those it does not use are ignored (R99). -/
def hotpEvent (n : BitVec 8) (ctr : Word64) (key : KeySource) : Event :=
  .issue (commandWord 2#4 0#4 n) (some { key := key, ctr := ctr, t0 := 0#64, ivl := 0#64, now := 0#64 })

/-- `otp.totp` with its operands (R104). -/
def totpEvent (t0 ivl now : Word64) (key : KeySource) : Event :=
  .issue (commandWord 2#4 1#4 0#8) (some { key := key, ctr := 0#64, t0 := t0, ivl := ivl, now := now })

/-- The events of a line; pseudo-instructions expand by R105's table. -/
def AsmLine.events : AsmLine → List Event
  | .b32Start              => [.issue (commandWord 1#4 0#4 0#8) none]
  | .b32Push c             => [pushEvent c]
  | .b32End                => [.issue (commandWord 1#4 2#4 0#8) none]
  | .otpHotp n ctr key     => [hotpEvent n ctr key]
  | .otpTotp t0 ivl now key => [totpEvent t0 ivl now key]
  | .waitB32               => [.waitB32]
  | .waitOtp               => [.waitOtp]
  | .b32Str text           => text.map pushEvent
  | .decode text           => decodeEvents text ++ [.waitB32]
  | .hotp n ctr key        => [hotpEvent n ctr key, .waitOtp]
  | .totp t0 ivl now key   => [totpEvent t0 ivl now key, .waitOtp]

/-- The events of a program, line by line in issue order (20_memory.md R72). -/
def assemble (program : List AsmLine) : List Event := program.flatMap AsmLine.events

end Sys2Proof.Machine
end

