-- ==== Sys2Proof/Machine/Step.lean ====
section
/-! DEFINITION. One step of the machine: one command accepted and executed, one stage of the OTP unit or one answer of the HMAC
primitive, one move of a waiting host, or one reset (00_scope.md R5). -/

namespace Sys2Proof.Machine

/-- Take the next event; run the command it brings, or settle it. -/
def step (s : State) : Host.Outcome State Fault Refusal :=
  match fetch s with
  | .run i t    => exec i t
  | .settled r  => r

/-- `s` with the opcode table's word at the command port as the host's next action (log 7). The block has no program of its
own: a program is issued from outside, and this stands for the host issuing that one word with the bundle of `s`. -/
def State.withFetchWord (s : State) (nbits w : Nat) : State := issueNext (tableWord nbits w).asCommand s

end Sys2Proof.Machine
end

