-- ==== Sys2Proof/Machine/BigStep.lean ====
section
/-! DEFINITION. The calls as functions: `decode` (40_base32_decoder.md R139), `hotp` (41_hotp_engine.md R166) and `totp`
(42_totp.md R203), on natural numbers and independent of the registers and stages, with the keyed hash as an argument. -/

namespace Sys2Proof.Machine

/-- The one formula for the eight actions (R136), on unbounded naturals with explicit truncation (00_scope.md R10). -/
def mergeFormula (fill : Fin 8) (acc : Byte) (v : SymVal) : Merge :=
  if fill.val < 3 then
    { acc := BitVec.ofNat 8 (acc.toNat ||| (v.toNat * 2 ^ (3 - fill.val))), fill := fill + 5, emitted := none }
  else
    { acc := BitVec.ofNat 8 (v.toNat * 2 ^ (11 - fill.val)), fill := fill + 5,
      emitted := some (BitVec.ofNat 8 (acc.toNat ||| (v.toNat / 2 ^ (fill.val - 3)))) }

/-- The loop of `decode` (R139) from a given accumulator, fill count and output. -/
def decodeFrom : List Byte → Byte → Fin 8 → List Byte → Except ECode (List Byte)
  | [], _, _, out => .ok out
  | c :: t, acc, fill, out =>
    if upcase c = padCode then .ok out
    else match val? (upcase c) with
      | none   => .error .decodeError
      | some v =>
        let m := mergeFormula fill acc v
        decodeFrom t m.acc m.fill (out ++ m.emitted.toList)

/-- `decode` of a text of 8-bit symbols (R139). -/
def decodeText (t : List Byte) : Except ECode (List Byte) := decodeFrom t 0#8 0 []

/-- The 8 bytes of a counter, big-endian (20_memory.md R64). -/
def counterBytes (ctr : Word64) : List Byte :=
  (List.range 8).map fun i => BitVec.ofNat 8 (ctr.toNat / 256 ^ (7 - i))

/-- Byte `i` of a digest as a number; the callers below keep `i` at most 19. -/
def digestByte (h : Digest) (i : Nat) : Nat := (h.toList.getD i 0#8).toNat

/-- The truncated integer `P` of a digest (R166). -/
def truncatedNat (h : Digest) : Nat :=
  let off := digestByte h 19 % 16
  (digestByte h off * 2 ^ 24 + digestByte h (off + 1) * 2 ^ 16 + digestByte h (off + 2) * 2 ^ 8
    + digestByte h (off + 3)) % 2 ^ 31

/-- The `n` characters of a code: the least significant `n` decimal digits of `p`, most significant first (R166). -/
def codeOf (p n : Nat) : List Byte :=
  (List.range n).map fun j => BitVec.ofNat 8 (0x30 + p / 10 ^ (n - 1 - j) % 10)

/-- `hotp` (R166). -/
def hotpCode (hmac : List Byte → List Byte → Digest) (key : List Byte) (ctr : Word64) (n : Nat) : Except ECode (List Byte) :=
  if n = 6 ∨ n = 7 ∨ n = 8 then .ok (codeOf (truncatedNat (hmac key (counterBytes ctr))) n)
  else .error .invalidParameter

/-- `totp` (R203). -/
def totpCode (hmac : List Byte → List Byte → Digest) (key : List Byte) (t0 ivl now : Word64) : Except ECode (List Byte) :=
  if ivl.toNat = 0 ∨ now.toNat < t0.toNat then .error .invalidParameter
  else hotpCode hmac key (BitVec.ofNat 64 ((now.toNat - t0.toNat) / ivl.toNat)) 6

end Sys2Proof.Machine
end

