-- ==== Sys2Proof/Safety.lean ====
section
/-! DEFINITION. The terms in which claims are stated: the result of a call as the host sees it, the invariants of the two
units, and which instructions belong to which unit. -/

namespace Sys2Proof.Machine

/-! ## Results (10_state.md R27, R38, 60_exceptions.md R241) -/

/-- The result of a decode: none while `PH` is RUN; the bytes in DONE; the error in FAIL (R27). -/
def B32.result (u : B32) : Option (Except ECode (List Byte)) :=
  match u.ph with
  | .run  => none
  | .done => some (.ok u.out)
  | .fail => some (.error u.ecode.kind)

/-- The result of an OTP call: the `CLEN` characters of `CODE` in DONE, the error in FAIL, otherwise none (R38). -/
def Otp.result (u : Otp) : Option (Except ECode (List Byte)) :=
  match u.ph with
  | .done => some (.ok (u.code.toList.take u.codeLength))
  | .fail => some (.error u.ecode.kind)
  | .idle | .enc | .hmac | .trunc | .digit => none

/-- Apply `f` to the next state of an outcome; a stop stays as it is. -/
def mapNext (f : State → State) : Result → Result
  | .next s    => .next (f s)
  | .fault r   => .fault r
  | .refused r => .refused r

/-! ## Units -/

/-- The instruction is an OTP command: its word has `unit` 2 (30_encoding.md R91). All others belong to the B32 unit. -/
def forOtp (i : Instr) : Bool :=
  match encode i with
  | .command w => unitField w == 2#4
  | .symbol _  => false

/-- There is room for what action S<FILL> may emit: it emits nothing (`FILL` below 3), or one more byte is within
`B32_OUT_CAP` (40_base32_decoder.md R136, R137). -/
def State.room (s : State) : Prop := s.b32.fill.val < 3 ∨ withinCap s.params.b32OutCap (s.b32.out.length + 1) = true

/-! ## Texts and bit strings (40_base32_decoder.md R139 to R145) -/

/-- The consumed symbols of a text: those before its first `=` (00_scope.md R13). -/
def consumed (t : List Byte) : List Byte := t.takeWhile fun c => upcase c != padCode

/-- The values of the consumed symbols, in order. -/
def consumedValues (t : List Byte) : List SymVal := (consumed t).filterMap fun c => val? (upcase c)

/-- The `5n`-bit string of `n` values as a number, the first value most significant (R141). -/
def bitString (vs : List SymVal) : Nat := vs.foldl (fun b v => b * 32 + v.toNat) 0

/-- The number a decimal string denotes. -/
def decimalValue (code : List Byte) : Nat := code.foldl (fun a c => a * 10 + (c.toNat - 0x30)) 0

/-! ## Invariants -/

/-- What the B32 registers satisfy at every step (10_state.md R24 to R27). -/
structure B32.Ok (p : Config.Params) (u : B32) : Prop where
  /-- `ECODE` is 1 exactly when `PH` is FAIL (R27). -/
  ecode_of_phase : u.ecode = if u.ph = .fail then .decodeError else .ok
  /-- A failed decode has no bytes (R27, R228). -/
  failed_empty : u.ph = .fail → u.out = []
  /-- Leaving RUN clears the accumulator (R138, R228). -/
  stopped_clear : u.ph ≠ .run → u.acc = 0#8 ∧ u.fill = 0
  /-- Every bit of `ACC` below its `FILL` valid bits is zero (R26 b). -/
  low_bits_zero : u.acc.toNat % 2 ^ (8 - u.fill.val) = 0
  /-- `8 * |OUT| + FILL` is five times the number of consumed symbols (R26 a). -/
  whole_symbols : u.ph = .run → (8 * u.out.length + u.fill.val) % 5 = 0
  /-- The output is within its capacity (R137). -/
  within_cap : withinCap p.b32OutCap u.out.length = true

/-- What the OTP registers satisfy at every step (10_state.md R36 to R39); that a digit is 0 to 9 (R37) its type says. -/
structure Otp.Ok (u : Otp) : Prop where
  /-- `ECODE` is 2 exactly when `PH` is FAIL (R39). -/
  ecode_of_phase : u.ecode = if u.ph = .fail then .invalidParameter else .ok
  /-- Outside DONE there is no code (R38, R160, R228). -/
  no_code : u.ph ≠ .done → u.clen = none ∧ u.code = Vector.replicate 8 0#8
  /-- No more than `N` digits are produced (R164). -/
  count_le : u.ph = .digit → u.i.val ≤ u.n.toNat
  /-- In DONE the code has `N` characters (R165, R169). -/
  code_length : u.ph = .done → u.clen = some u.n
  /-- In DONE the `N` characters are ASCII digits and the other cells are zero (R38). -/
  code_chars : u.ph = .done → ∀ j : Fin 8,
    (j.val < u.n.toNat → 0x30#8 ≤ u.code[j.val] ∧ u.code[j.val] ≤ 0x39#8) ∧ (u.n.toNat ≤ j.val → u.code[j.val] = 0#8)

/-- How the working registers of a call depend on its operands (41_hotp_engine.md R161 to R166): in every phase the registers
written so far hold what the big-step functions compute from `KEY`, `CTR` and `N`. -/
structure Otp.Traced (u : Otp) : Prop where
  msg_of_ctr : u.ph = .hmac ∨ u.ph = .trunc ∨ u.ph = .digit ∨ u.ph = .done → u.msg.toList = counterBytes u.ctr
  hash_of_request : u.ph = .trunc ∨ u.ph = .digit ∨ u.ph = .done → u.hash = Config.hmac u.key (counterBytes u.ctr)
  trunc_of_hash : u.ph = .digit ∨ u.ph = .done →
    u.off.toNat = digestByte u.hash 19 % 16 ∧ u.p.toNat = truncatedNat u.hash
  quotient : u.ph = .digit → u.q.toNat = u.p.toNat / 10 ^ u.i.val
  digits : u.ph = .digit → ∀ j : Fin 8, j.val < u.i.val → (u.dig[j.val]).val = u.p.toNat / 10 ^ j.val % 10
  result_is_hotp : u.ph = .done → u.result = some (hotpCode Config.hmac u.key u.ctr u.n.toNat)

/-- The invariant of the whole machine: both units, and a latched key within its capacity (R30, U5). -/
structure State.Ok (s : State) : Prop where
  b32 : s.b32.Ok s.params
  otp : s.otp.Ok
  key_within_cap : withinCap s.params.keyCap s.otp.key.length = true

end Sys2Proof.Machine
end

