-- ==== Sys2Proof/Certificates/Slice0/Obligations.lean ====
section
/-! DEFINITION. The statements for the provers. Each docstring names the rule of spec/ it formalises; where one rests on a
choice of the model or on a passage the spec marks as derived, it says so. -/

open Sys2Proof Sys2Proof.Machine

/-! ## Encoding -/

/-- R92: the opcode map of Format K. A word decodes to an operation exactly when `word & mask = match`, and the operand is
its low byte. -/
def Obligations.CommandWordsOfTheOpcodeMap : Prop :=
  ∀ w : CommandWord,
    (w &&& 0xFFFF#16 = 0x1000#16 ↔ decodeCommand w = .ok .b32Start) ∧
    (w &&& 0xFF00#16 = 0x1100#16 ↔ decodeCommand w = .ok (.b32Push (w.setWidth 8))) ∧
    (w &&& 0xFFFF#16 = 0x1200#16 ↔ decodeCommand w = .ok .b32End) ∧
    (w &&& 0xFF00#16 = 0x2000#16 ↔ decodeCommand w = .ok (.otpHotp (w.setWidth 8))) ∧
    (w &&& 0xFFFF#16 = 0x2100#16 ↔ decodeCommand w = .ok .otpTotp)

/-- R101: a command word that matches no row of the opcode map has no meaning: the decoder rejects it and the step that
would accept it refuses; a word that matches a row decodes. -/
def Obligations.ReservedWordsAreRefused : Prop :=
  ∀ w : CommandWord,
    if w = 0x1000#16 ∨ w &&& 0xFF00#16 = 0x1100#16 ∨ w = 0x1200#16 ∨ w &&& 0xFF00#16 = 0x2000#16 ∨ w = 0x2100#16 then
      ∃ i, decodeCommand w = .ok i
    else
      ∃ why, decodeCommand w = .error why ∧
        ∀ (s : State) ops rest, s.pending = .issue w ops :: rest → step s = .refused (.reservedWord w why)

/-- Section 4 of 30_encoding.md (R106, marked as derived): a decoder for both formats can be written from the table
alone; decoding the word of a well-formed instruction gives the instruction back. -/
def Obligations.EncodeDecodeRoundTrip : Prop :=
  ∀ i : Instr, i.wf = true → decodeWord (encode i) = .ok i

/-- Each word of either format has at most one meaning: what decodes is well formed and encodes back to the same word. -/
def Obligations.DecodedWordEncodesBack : Prop :=
  ∀ (e : EncodedWord) (i : Instr), decodeWord e = .ok i → i.wf = true ∧ encode i = e

/-- Section 2 of 30_encoding.md (R94, R97): the fold changes exactly 0x61 to 0x7A, and the classes are the code ranges of
the table, 58 data codes, one pad code and 197 invalid codes. -/
def Obligations.SymbolClassesByCode : Prop :=
  (∀ c : Byte, upcase c = if 0x61#8 ≤ c ∧ c ≤ 0x7A#8 then c - 0x20#8 else c) ∧
  (∀ c : Byte, classify c = .pad ↔ c = 0x3D#8) ∧
  (∀ c : Byte, classify c = .invalid ↔ isInvalidCode c = true) ∧
  (∀ c : Byte, (∃ v, classify c = .data v) ↔
    (0x41#8 ≤ c ∧ c ≤ 0x5A#8) ∨ (0x61#8 ≤ c ∧ c ≤ 0x7A#8) ∨ (0x32#8 ≤ c ∧ c ≤ 0x37#8)) ∧
  ((List.range 256).countP fun k => isInvalidCode (BitVec.ofNat 8 k)) = 197

/-- R22, R28, R221: the numeric codes of the phases and error kinds. -/
def Obligations.PhaseAndErrorCodes : Prop :=
  B32Phase.run.code = 0#2 ∧ B32Phase.done.code = 1#2 ∧ B32Phase.fail.code = 2#2 ∧
  OtpPhase.idle.code = 0#3 ∧ OtpPhase.enc.code = 1#3 ∧ OtpPhase.hmac.code = 2#3 ∧ OtpPhase.trunc.code = 3#3 ∧
  OtpPhase.digit.code = 4#3 ∧ OtpPhase.done.code = 5#3 ∧ OtpPhase.fail.code = 6#3 ∧
  ECode.ok.code = 0#2 ∧ ECode.decodeError.code = 1#2 ∧ ECode.invalidParameter.code = 2#2 ∧
  B32Ecode.ok.kind.code = 0#2 ∧ B32Ecode.decodeError.kind.code = 1#2 ∧
  OtpEcode.ok.kind.code = 0#2 ∧ OtpEcode.invalidParameter.kind.code = 2#2

/-! ## B32 commands -/

/-- R120: `B32.START`, from every state; nothing but the B32 unit changes. -/
def Obligations.StartOpensDecode : Prop :=
  ∀ s : State, exec .b32Start s = .next { s with b32 := { ph := .run, fill := 0, acc := 0#8, out := [], ecode := .ok } }

/-- Sections 1 and 2 of 40_base32_decoder.md: `B32.PUSH c` completes in every state, but for a data symbol in RUN without room
(`FullOutputRefusesDataSymbols`), with fold, then `=`, then table (R121). The data case uses the one formula of R136, which the
spec marks as derived, not the normative table of actions the model runs; `OneFormulaForAllActions` says they agree. -/
def Obligations.PushCompletesByClass : Prop :=
  ∀ (c : Byte) (s : State), (s.b32.ph ≠ .run ∨ val? (upcase c) = none ∨ s.room) →
    exec (.b32Push c) s = .next
      (if s.b32.ph ≠ .run then s
      else if upcase c = 0x3D#8 then { s with b32 := { s.b32 with ph := .done, fill := 0, acc := 0#8 } }
      else match val? (upcase c) with
        | some v => { s with b32 := s.b32.merged (mergeFormula s.b32.fill s.b32.acc v) }
        | none   => { s with b32 := { ph := .fail, fill := 0, acc := 0#8, out := [], ecode := .decodeError } })

/-- Section 4 of 30_encoding.md (R106) and R121: pushing a symbol does exactly what its Format S row does, in every state, with
or without room. What a row does outside RUN is the model's reading (log 6). -/
def Obligations.PushRunsTheRowOfItsSymbol : Prop :=
  ∀ (c : Byte) (s : State), exec (.b32Push c) s = exec (decodeSymbol c) s

/-- R127: `B32.END`. -/
def Obligations.EndClosesDecode : Prop :=
  ∀ s : State, exec .b32End s = .next
    (if s.b32.ph = .run then { s with b32 := { s.b32 with ph := .done, fill := 0, acc := 0#8 } } else s)

/-- R103, and for the symbol rows R144 (log 6): after the stop every B32 instruction but `B32.START` completes and changes
nothing. -/
def Obligations.StoppedDecodeIgnoresSymbols : Prop :=
  ∀ (i : Instr) (s : State), forOtp i = false → i ≠ .b32Start → s.b32.ph ≠ .run → exec i s = .next s

/-! ## Symbol rows -/

/-- R122: `SYM.A` to `SYM.Z`, each with `v = c - 0x41`, perform action S<FILL> in phase RUN; no flag is written and nothing
outside the accumulator, fill count and output changes. -/
def Obligations.UppercaseRowsMergeTheirValue : Prop :=
  ∀ r ∈ upperRows, ∀ s : State, s.b32.ph = .run → s.room →
    exec r.2 s = .next
      { s with b32 := s.b32.merged (accumulate s.b32.fill s.b32.acc (BitVec.ofNat 5 (r.1.toNat - 0x41))) }

/-- R123: `SYM.a` to `SYM.z`, each with `v = c - 0x61`, as the uppercase letters. -/
def Obligations.LowercaseRowsMergeTheirValue : Prop :=
  ∀ r ∈ lowerRows, ∀ s : State, s.b32.ph = .run → s.room →
    exec r.2 s = .next
      { s with b32 := s.b32.merged (accumulate s.b32.fill s.b32.acc (BitVec.ofNat 5 (r.1.toNat - 0x61))) }

/-- R124: `SYM.2` to `SYM.7`, each with `v = c - 0x32 + 26`. -/
def Obligations.DigitRowsMergeTheirValue : Prop :=
  ∀ r ∈ digitRows, ∀ s : State, s.b32.ph = .run → s.room →
    exec r.2 s = .next
      { s with b32 := s.b32.merged (accumulate s.b32.fill s.b32.acc (BitVec.ofNat 5 (r.1.toNat - 0x32 + 26))) }

/-- R125: the padding sentinel in phase RUN. -/
def Obligations.PadStopsTheDecode : Prop :=
  ∀ s : State, s.b32.ph = .run →
    exec .symPad s = .next { s with b32 := { s.b32 with ph := .done, fill := 0, acc := 0#8 } }

/-- R126: an invalid symbol in phase RUN raises DecodeError, whatever its code. -/
def Obligations.InvalidSymbolRaisesDecodeError : Prop :=
  ∀ (c : Byte) (s : State), s.b32.ph = .run →
    exec (.symInvalid c) s = .next
      { s with b32 := { ph := .fail, fill := 0, acc := 0#8, out := [], ecode := .decodeError } }

/-- R137, U5: an action that would emit beyond a finite `B32_OUT_CAP` has no meaning and every data row refuses it. That the
whole push is refused, with none of its effect, is the model's choice (log 17). -/
def Obligations.FullOutputRefusesDataSymbols : Prop :=
  ∀ r ∈ upperRows ++ lowerRows ++ digitRows, ∀ s : State, s.b32.ph = .run → ¬ s.room →
    exec r.2 s = .refused .outCapacity

/-! ## The accumulator -/

/-- R128 to R130: actions S0, S1, S2, as pseudocode and as bit placement. -/
def Obligations.ActionsThatDoNotEmit : Prop :=
  ∀ (acc : Byte) (v : SymVal),
    (accumulate 0 acc v = { acc := acc ||| BitVec.ofNat 8 (v.toNat * 8), fill := 5, emitted := none } ∧
      (acc = 0#8 → (accumulate 0 acc v).acc = v ++ 0#3)) ∧
    (accumulate 1 acc v = { acc := acc ||| BitVec.ofNat 8 (v.toNat * 4), fill := 6, emitted := none } ∧
      (acc.toNat % 2 ^ 7 = 0 → (accumulate 1 acc v).acc = acc.extractLsb' 7 1 ++ v ++ 0#2)) ∧
    (accumulate 2 acc v = { acc := acc ||| BitVec.ofNat 8 (v.toNat * 2), fill := 7, emitted := none } ∧
      (acc.toNat % 2 ^ 6 = 0 → (accumulate 2 acc v).acc = acc.extractLsb' 6 2 ++ v ++ 0#1))

/-- R131 to R135: actions S3 to S7, as pseudocode with the new accumulator truncated to 8 bits, and as bit placement. -/
def Obligations.ActionsThatEmit : Prop :=
  ∀ (acc : Byte) (v : SymVal),
    (accumulate 3 acc v = { acc := 0#8, fill := 0, emitted := some (acc ||| BitVec.ofNat 8 v.toNat) } ∧
      (acc.toNat % 2 ^ 5 = 0 → (accumulate 3 acc v).emitted = some (acc.extractLsb' 5 3 ++ v))) ∧
    (accumulate 4 acc v = { acc := BitVec.ofNat 8 (v.toNat * 128), fill := 1,
                            emitted := some (acc ||| BitVec.ofNat 8 (v.toNat / 2)) } ∧
      (accumulate 4 acc v).acc = v.extractLsb' 0 1 ++ 0#7 ∧
      (acc.toNat % 2 ^ 4 = 0 → (accumulate 4 acc v).emitted = some (acc.extractLsb' 4 4 ++ v.extractLsb' 1 4))) ∧
    (accumulate 5 acc v = { acc := BitVec.ofNat 8 (v.toNat * 64), fill := 2,
                            emitted := some (acc ||| BitVec.ofNat 8 (v.toNat / 4)) } ∧
      (accumulate 5 acc v).acc = v.extractLsb' 0 2 ++ 0#6 ∧
      (acc.toNat % 2 ^ 3 = 0 → (accumulate 5 acc v).emitted = some (acc.extractLsb' 3 5 ++ v.extractLsb' 2 3))) ∧
    (accumulate 6 acc v = { acc := BitVec.ofNat 8 (v.toNat * 32), fill := 3,
                            emitted := some (acc ||| BitVec.ofNat 8 (v.toNat / 8)) } ∧
      (accumulate 6 acc v).acc = v.extractLsb' 0 3 ++ 0#5 ∧
      (acc.toNat % 2 ^ 2 = 0 → (accumulate 6 acc v).emitted = some (acc.extractLsb' 2 6 ++ v.extractLsb' 3 2))) ∧
    (accumulate 7 acc v = { acc := BitVec.ofNat 8 (v.toNat * 16), fill := 4,
                            emitted := some (acc ||| BitVec.ofNat 8 (v.toNat / 16)) } ∧
      (accumulate 7 acc v).acc = v.extractLsb' 0 4 ++ 0#4 ∧
      (acc.toNat % 2 ^ 1 = 0 → (accumulate 7 acc v).emitted = some (acc.extractLsb' 1 7 ++ v.extractLsb' 4 1)))

/-- Section 2 of 40_base32_decoder.md (R136, which the spec marks as derived): one formula equals the table of actions, `FILL`
advances by 5 modulo 8, and a byte is emitted exactly from `FILL` 3 on. -/
def Obligations.OneFormulaForAllActions : Prop :=
  ∀ (f : Fin 8) (acc : Byte) (v : SymVal),
    accumulate f acc v = mergeFormula f acc v ∧
    (accumulate f acc v).fill.val = (f.val + 5) % 8 ∧
    ((accumulate f acc v).emitted.isSome = true ↔ 3 ≤ f.val)

/-! ## OTP commands -/

/-- The acceptance step of R160 for a legal digit length: the previous result is withdrawn, `KEY`, `CTR` and `N` are latched,
stage ENC is next, and nothing else changes. -/
def Obligations.HotpAcceptsLegalLength : Prop :=
  ∀ (n : BitVec 8) (d : DigitLen) (s : State), n.toNat = d.toNat → s.otp.ph.busy = false →
    withinCap s.params.keyCap s.bundle.key.length = true →
    exec (.otpHotp n) s = .next
      { s with otp := { s.otp with ph := .enc, key := s.bundle.key, ctr := s.bundle.ctr, n := d,
                                   clen := none, code := Vector.replicate 8 0#8, ecode := .ok } }

/-- R223 (a), R228 and the failing branch of R160: any other digit length ends at once in FAIL with code 2 and no code, for
every key (a key beyond `KEY_CAP` too, log 11); no operand is latched, and the working registers keep their values (log 22). -/
def Obligations.HotpRejectsOtherLengths : Prop :=
  ∀ (n : BitVec 8) (s : State), n.toNat ≠ 6 → n.toNat ≠ 7 → n.toNat ≠ 8 → s.otp.ph.busy = false →
    exec (.otpHotp n) s = .next
      { s with otp := { s.otp with ph := .fail, ecode := .invalidParameter, clen := none, code := Vector.replicate 8 0#8 } }

/-- R201: the counter of `OTP.TOTP` is the exact floor quotient, which fits 64 bits; with R200's acceptance step. -/
def Obligations.TotpAcceptsWithFloorCounter : Prop :=
  ∀ s : State, s.otp.ph.busy = false → s.bundle.ivl.toNat ≠ 0 → s.bundle.t0.toNat ≤ s.bundle.now.toNat →
    withinCap s.params.keyCap s.bundle.key.length = true →
    ∃ ctr : Word64, ctr.toNat = (s.bundle.now.toNat - s.bundle.t0.toNat) / s.bundle.ivl.toNat ∧
      exec .otpTotp s = .next
        { s with otp := { s.otp with ph := .enc, key := s.bundle.key, ctr := ctr, n := .six,
                                     clen := none, code := Vector.replicate 8 0#8, ecode := .ok } }

/-- R223 (b), (c), R228 and the failing branch of R200: a zero interval or a time before `t0` ends at once in FAIL, for
every key (a key beyond `KEY_CAP` too, log 11), and the working registers keep their values (log 22). -/
def Obligations.TotpRejectsZeroIntervalAndEarlyTime : Prop :=
  ∀ s : State, s.otp.ph.busy = false → (s.bundle.ivl.toNat = 0 ∨ s.bundle.now.toNat < s.bundle.t0.toNat) →
    exec .otpTotp s = .next
      { s with otp := { s.otp with ph := .fail, ecode := .invalidParameter, clen := none, code := Vector.replicate 8 0#8 } }

/-- 42_totp.md (R202, which the spec marks as derived): an accepted TOTP leaves the OTP unit exactly as HOTP with
six digits and the derived counter does. -/
def Obligations.TotpDelegatesToHotp : Prop :=
  ∀ s : State, s.otp.ph.busy = false → s.bundle.ivl.toNat ≠ 0 → s.bundle.t0.toNat ≤ s.bundle.now.toNat →
    ∀ ctr : Word64, ctr.toNat = (s.bundle.now.toNat - s.bundle.t0.toNat) / s.bundle.ivl.toNat →
      exec .otpTotp s = mapNext (fun t => t.setBundle s.bundle) (exec (.otpHotp 6#8) (s.setBundle { s.bundle with ctr := ctr }))

/-- Section 3 of 70_reset_and_hazards.md (R266): an OTP command to a busy OTP unit is refused; every B32 instruction completes
meanwhile, given room for what it may emit where a decode is open. That this holds of a symbol row by itself, which outside
RUN does nothing, is the model's reading (log 6). -/
def Obligations.BusyOtpUnitRefusesOtpCommandsOnly : Prop :=
  ∀ s : State, s.otp.ph.busy = true →
    (∀ n, exec (.otpHotp n) s = .refused .otpBusy) ∧ exec .otpTotp s = .refused .otpBusy ∧
    ∀ i, forOtp i = false → (s.b32.ph ≠ .run ∨ s.room) → ∃ t, exec i s = .next t

/-- U5, D32: a key beyond a finite `KEY_CAP` is refused at the acceptance of a call that would latch it (log 11). -/
def Obligations.KeyBeyondCapacityIsRefused : Prop :=
  ∀ s : State, s.otp.ph.busy = false → withinCap s.params.keyCap s.bundle.key.length = false →
    (∀ n d, digitLen? n = some d → exec (.otpHotp n) s = .refused .keyCapacity) ∧
    (s.bundle.ivl.toNat ≠ 0 → s.bundle.t0.toNat ≤ s.bundle.now.toNat → exec .otpTotp s = .refused .keyCapacity)

/-! ## OTP stages -/

/-- R161: stage ENC writes the counter's bytes, most significant first, and makes the request outstanding. -/
def Obligations.EncWritesBigEndianCounter : Prop :=
  ∀ s : State, s.otp.ph = .enc →
    ∃ m : Message, (∀ i : Fin 8, (m[i.val]).toNat = s.otp.ctr.toNat / 256 ^ (7 - i.val) % 256) ∧
      otpStage s = .next { s with otp := { s.otp with msg := m, ph := .hmac } }

/-- R162: stage HMAC takes the primitive's answer to `(KEY, MSG)` and is always enabled. -/
def Obligations.HmacAnswersTheRequest : Prop :=
  ∀ s : State, s.otp.ph = .hmac →
    s.otp.request = some (s.otp.key, s.otp.msg) ∧
    otpStage s = .next { s with otp := { s.otp with hash := Config.hmac s.otp.key s.otp.msg.toList, ph := .trunc } }

/-- R163: stage TRUNC for every one of the digests. -/
def Obligations.TruncTakesMaskedWindow : Prop :=
  ∀ s : State, s.otp.ph = .trunc →
    ∃ (off : BitVec 4) (p : BitVec 31),
      off.toNat = (s.otp.hash[19]).toNat % 16 ∧
      p.toNat = (digestByte s.otp.hash off.toNat * 2 ^ 24 + digestByte s.otp.hash (off.toNat + 1) * 2 ^ 16 +
        digestByte s.otp.hash (off.toNat + 2) * 2 ^ 8 + digestByte s.otp.hash (off.toNat + 3)) % 2 ^ 31 ∧
      otpStage s = .next { s with otp := { s.otp with off := off, p := p, q := p, i := 0, ph := .digit } }

/-- R164: stage DIGIT while `I < N`. -/
def Obligations.DigitTakesModAndDivByTen : Prop :=
  ∀ s : State, s.otp.ph = .digit → s.otp.i.val < s.otp.n.toNat →
    ∃ (q : BitVec 31) (i : Fin 9) (dig : Vector (Fin 10) 8),
      q.toNat = s.otp.q.toNat / 10 ∧ i.val = s.otp.i.val + 1 ∧
      (∀ j : Fin 8, (dig[j.val]).val = if j.val = s.otp.i.val then s.otp.q.toNat % 10 else (s.otp.dig[j.val]).val) ∧
      otpStage s = .next { s with otp := { s.otp with dig := dig, q := q, i := i } }

/-- R165: stage RENDER when `I = N` reverses the digits into ASCII and enters DONE. -/
def Obligations.RenderReversesDigits : Prop :=
  ∀ s : State, s.otp.ph = .digit → s.otp.i.val = s.otp.n.toNat →
    ∃ (code : Vector Byte 8) (t : State),
      t = { s with otp := { s.otp with code := code, clen := some s.otp.n, ph := .done } } ∧
      readPort .otpClen t = .number s.otp.n.toNat ∧
      (∀ j k : Fin 8, j.val + k.val + 1 = s.otp.n.toNat → (code[j.val]).toNat = 0x30 + (s.otp.dig[k.val]).val) ∧
      (∀ j : Fin 8, s.otp.n.toNat ≤ j.val → code[j.val] = 0#8) ∧
      otpStage s = .next t

/-- Section 4 of 20_memory.md (R70): of the host-visible result registers `CODE`, `CLEN` and `ECODE` a stage changes none until
the RENDER step that enters DONE, and no stage touches anything outside the OTP unit. -/
def Obligations.StagesShowResultsOnlyAtRender : Prop :=
  ∀ s t : State, otpStage s = .next t →
    t = s.setOtp t.otp ∧ t.otp.ecode = s.otp.ecode ∧ t.otp.key = s.otp.key ∧ t.otp.ctr = s.otp.ctr ∧ t.otp.n = s.otp.n ∧
    ((t.otp.code = s.otp.code ∧ t.otp.clen = s.otp.clen) ∨ (s.otp.ph = .digit ∧ t.otp.ph = .done))

/-- Section 5 of 20_memory.md (R77) and 10_state.md R44, over every step: a request appears only in stage ENC, carrying `KEY` and
the counter bytes, and goes away only by its answer, which is then the digest, or by a reset (log 9). -/
def Obligations.HmacRequestLifecycle : Prop :=
  ∀ s t : State, step s = .next t → t.otp.request ≠ s.otp.request →
    (s.otp.ph = .enc ∧ s.otp.request = none ∧ ∃ m : Message, m.toList = counterBytes s.otp.ctr ∧ t.otp.request = some (s.otp.key, m)) ∨
    (s.otp.ph = .hmac ∧ t.otp.request = none ∧
      ((t.otp.ph = .trunc ∧ t.otp.hash = Config.hmac s.otp.key s.otp.msg.toList) ∨ t.otp.ph = .idle))

/-! ## The step -/

/-- 00_scope.md R5, R11 (a) in the model's names (log 1, log 8): a step whose next event is a command word that decodes to `i` is
`exec` of `i`, on the state with that event taken and the operands presented. -/
def Obligations.StepRunsTheIssuedCommand : Prop :=
  ∀ (s : State) (w : CommandWord) (ops : Option Operands) (rest : List Event) (i : Instr),
    s.pending = .issue w ops :: rest → decodeCommand w = .ok i →
    i.wf = true ∧
    step s = exec i { s with
      pending := rest
      bundle  := match ops with
        | none   => s.bundle
        | some o => { key := match o.key with | .bytes b => b | .b32Out => s.b32.out,
                      ctr := o.ctr, t0 := o.t0, ivl := o.ivl, now := o.now } }

/-- The opcode table's words (log 7): whatever row a word of the table decodes to, the step that fetches it is `exec` of that
instruction, a symbol row included, from every state. -/
def Obligations.StepRunsTheTableWord : Prop :=
  ∀ (s : State) (nbits w : Nat) (i : Instr), decodeTableWord nbits w = some i → step (s.withFetchWord nbits w) = exec i s

/-- The model's scheduling (log 1, log 2, log 12), from 00_scope.md R5 and 30_encoding.md R104: without a command the OTP unit takes its
enabled stage; a block that is not busy rests; a wait whose condition holds lets the host go on. -/
def Obligations.StepWithoutACommand : Prop :=
  ∀ s : State,
    (s.pending = [] → step s = otpStage s) ∧
    (∀ rest, s.pending = .otpTurn :: rest → step s = otpStage (s.setPending rest)) ∧
    (∀ rest, s.pending = .waitB32 :: rest → step s = if s.b32.ph ≠ .run then .next (s.setPending rest) else otpStage s) ∧
    (∀ rest, s.pending = .waitOtp :: rest →
      step s = if s.otp.ph = .done ∨ s.otp.ph = .fail then .next (s.setPending rest) else otpStage s) ∧
    (s.otp.ph.busy = false → otpStage s = .next s)

/-- Section 4 of 10_state.md (R41): the host's ports are read-only and a write to one has no meaning. -/
def Obligations.PortWritesAreRefused : Prop :=
  ∀ (s : State) (p : Port) (rest : List Event), s.pending = .writePort p :: rest → step s = .refused (.portWrite p)

/-- 20_memory.md R78: with `key=b32.out` the key that a legal HOTP latches is `B32.OUT`, all bytes in order. -/
def Obligations.KeyHandOverFromB32 : Prop :=
  ∀ (s : State) (n : BitVec 8) (d : DigitLen) (ctr : Word64) (rest : List Event),
    n.toNat = d.toNat → s.otp.ph.busy = false → withinCap s.params.keyCap s.b32.out.length = true →
    ∃ t, step (s.setPending (hotpEvent n ctr .b32Out :: rest)) = .next t ∧
      t.otp.key = s.b32.out ∧ t.otp.ctr = ctr ∧ t.otp.n = d ∧ t.otp.ph = .enc ∧ t.b32 = s.b32 ∧ t.pending = rest

/-! ## Reset -/

/-- R46: the values the spec gives for reset. The unspecified registers are not mentioned. -/
def Obligations.ResetValues : Prop :=
  State.reset.b32.ph = .run ∧ State.reset.b32.fill = 0 ∧ State.reset.b32.acc = 0#8 ∧ State.reset.b32.out = [] ∧
  State.reset.b32.ecode = .ok ∧ State.reset.otp.ph = .idle ∧ State.reset.otp.ecode = .ok ∧ State.reset.otp.clen = none ∧
  ∀ j : Fin 8, State.reset.otp.code[j.val] = 0#8

/-- Section 1 of 70_reset_and_hazards.md (R260, R261, R262): applied in any phase, reset leaves every register the spec gives a
reset value at that value, abandons the call, and leaves the B32 unit exactly as `B32.START` does. -/
def Obligations.ResetAbandonsTheCall : Prop :=
  ∀ (s : State) (rest : List Event), s.pending = .reset :: rest →
    ∃ t, step s = .next t ∧ exec .b32Start t = .next t ∧
      t.otp.ph = .idle ∧ t.otp.ecode = .ok ∧ t.otp.clen = none ∧ t.otp.code = Vector.replicate 8 0#8 ∧
      t.otp.request = none ∧ t.pending = rest ∧ t.bundle = s.bundle ∧ t.params = s.params

/-! ## Frames and independence of the units -/

/-- What an instruction leaves unchanged, for all 65: a B32 instruction changes nothing but the B32 unit; an OTP command changes
nothing but the OTP unit, and in it none of the stages' working registers (which no rule writes then; log 22). -/
def Obligations.CommandFrame : Prop :=
  ∀ (i : Instr) (s t : State), exec i s = .next t →
    t.bundle = s.bundle ∧ t.pending = s.pending ∧ t.params = s.params ∧
    (forOtp i = false → t.otp = s.otp) ∧
    (forOtp i = true → t.b32 = s.b32 ∧ t.otp.msg = s.otp.msg ∧ t.otp.hash = s.otp.hash ∧ t.otp.off = s.otp.off ∧
      t.otp.p = s.otp.p ∧ t.otp.q = s.otp.q ∧ t.otp.i = s.otp.i ∧ t.otp.dig = s.otp.dig)

/-- The frame of the 58 data rows and of a push that carries one (R122 to R124 "Flags: none"): phase and error code stay, and the
output only grows at its end, by at most one byte (R137). -/
def Obligations.DataSymbolFrame : Prop :=
  ∀ r ∈ upperRows ++ lowerRows ++ digitRows, ∀ i : Instr, i = r.2 ∨ i = .b32Push r.1 →
    ∀ s t : State, exec i s = .next t →
      t.b32.ph = s.b32.ph ∧ t.b32.ecode = s.b32.ecode ∧ ∃ b : Option Byte, t.b32.out = s.b32.out ++ b.toList

/-- Section 4 of 10_state.md (R43, which the spec marks as derived): no rule of one unit reads or writes the other unit; an
instruction or stage answers the same whatever the other unit holds. -/
def Obligations.UnitsShareNoState : Prop :=
  (∀ (i : Instr) (s : State) (u : Otp), forOtp i = false →
    exec i (s.setOtp u) = mapNext (fun t => t.setOtp u) (exec i s)) ∧
  (∀ (i : Instr) (s : State) (u : B32), forOtp i = true →
    exec i (s.setB32 u) = mapNext (fun t => t.setB32 u) (exec i s)) ∧
  (∀ (s : State) (u : B32), otpStage (s.setB32 u) = mapNext (fun t => t.setB32 u) (otpStage s))

/-- R43, its second half: a B32 instruction and an OTP command, or an OTP stage, in either order give the same state. -/
def Obligations.UnitsCommute : Prop :=
  ∀ (i : Instr) (s t : State), forOtp i = false → exec i s = .next t →
    (∀ j u, forOtp j = true → exec j s = .next u → ∃ v, exec j t = .next v ∧ exec i u = .next v) ∧
    (∀ u, otpStage s = .next u → ∃ v, otpStage t = .next v ∧ exec i u = .next v)

/-! ## Invariants -/

/-- The invariants hold at reset; for the registers R46 leaves unspecified this rests on the model's values (log 3). -/
def Obligations.ResetMeetsInvariants : Prop :=
  State.reset.Ok ∧ State.reset.otp.Traced

/-- 10_state.md R26, R27, R36 to R39: whatever a step does, the registers of both units stay consistent: error codes exactly in FAIL,
no bytes of a failed decode, unfilled accumulator bits zero, fill count and output length in step with the consumed symbols,
no code outside DONE, and in DONE exactly `N` ASCII digits. -/
def Obligations.StepKeepsRegisterInvariant : Prop :=
  ∀ s t : State, s.Ok → step s = .next t → t.Ok

/-- 41_hotp_engine.md R161 to R166: whatever a step does, the working registers of an OTP call hold what the big-step functions
compute from `KEY`, `CTR` and `N`, and a completed call shows exactly `hotp` of them. -/
def Obligations.StepKeepsCallTrace : Prop :=
  ∀ s t : State, s.otp.Traced → step s = .next t → t.otp.Traced

/-! ## Whole calls -/

/-- Sections 3 of 41_hotp_engine.md (R166, R175) and 4 of 70_reset_and_hazards.md (R274), which the spec marks as derived: the call
`hotp n, ctr, key` of an idle unit ends after exactly `5 + n` steps of the unit (or 1 when it fails) and the step that ends
the wait (log 1), with the result of the function `hotp`; the B32 unit and the rest of the program are untouched. -/
def Obligations.HotpCallYieldsItsCode : Prop :=
  ∀ (s : State) (n : BitVec 8) (ctr : Word64) (key : KeySource) (rest : List Event),
    s.otp.ph.busy = false → withinCap s.params.keyCap (key.resolve s.b32).length = true →
    ∃ t : State,
      Host.Core.run Sys2Proof.core (if n.toNat = 6 ∨ n.toNat = 7 ∨ n.toNat = 8 then 6 + n.toNat else 2)
        (s.setPending ((AsmLine.hotp n ctr key).events ++ rest)) = .next t ∧
      t.otp.result = some (hotpCode Config.hmac (key.resolve s.b32) ctr n.toNat) ∧
      t.b32 = s.b32 ∧ t.params = s.params ∧ t.pending = rest

/-- R203, R274: the call `totp t0, ivl, now, key` ends after exactly 11 steps (or 1 when it fails) and the step that ends the
wait (log 1), with the result of the function `totp`. -/
def Obligations.TotpCallYieldsItsCode : Prop :=
  ∀ (s : State) (t0 ivl now : Word64) (key : KeySource) (rest : List Event),
    s.otp.ph.busy = false → withinCap s.params.keyCap (key.resolve s.b32).length = true →
    ∃ t : State,
      Host.Core.run Sys2Proof.core (if ivl.toNat = 0 ∨ now.toNat < t0.toNat then 2 else 12)
        (s.setPending ((AsmLine.totp t0 ivl now key).events ++ rest)) = .next t ∧
      t.otp.result = some (totpCode Config.hmac (key.resolve s.b32) t0 ivl now) ∧
      t.b32 = s.b32 ∧ t.params = s.params ∧ t.pending = rest

/-- R139, R274: the call `decode "TEXT"` of any text, from any state, ends after exactly `m + 2` steps and the step that ends the
wait (log 1), with the result of the function `decode`; the OTP unit, even a busy one, is untouched. -/
def Obligations.DecodeCallYieldsItsText : Prop :=
  ∀ (s : State) (text : List Byte) (rest : List Event),
    withinCap s.params.b32OutCap (5 * text.length / 8) = true →
    ∃ t : State,
      Host.Core.run Sys2Proof.core (text.length + 3) (s.setPending ((AsmLine.decode text).events ++ rest)) = .next t ∧
      t.b32.result = some (decodeText text) ∧ t.otp = s.otp ∧ t.bundle = s.bundle ∧ t.params = s.params ∧ t.pending = rest

/-! ## Laws of the calls -/

/-- Section 3 of 40_base32_decoder.md (R140, R141, which the spec marks as derived): the length of the output, and each of its
bytes as eight bits of the string of consumed values. -/
def Obligations.DecodedBytesAreTheBitString : Prop :=
  ∀ (text out : List Byte), decodeText text = .ok out →
    let n := (consumed text).length
    out.length = 5 * n / 8 ∧
    ∀ k, k < out.length →
      (out.getD k 0#8).toNat = bitString (consumedValues text) / 2 ^ (5 * n - 8 - 8 * k) % 256

/-- Section 3 of 40_base32_decoder.md (R145, marked as derived): a decode fails exactly when a character before the first `=` is
INVALID, and its only error is DecodeError. -/
def Obligations.DecodeFailsExactlyOnInvalid : Prop :=
  ∀ text : List Byte,
    (decodeText text = .error .decodeError ↔ ∃ c ∈ consumed text, classify c = .invalid) ∧
    ((∃ out, decodeText text = .ok out) ∨ decodeText text = .error .decodeError)

/-- R144, its last sentence: nothing after the first `=` matters, invalid characters included. -/
def Obligations.DecodeStopsAtFirstPad : Prop :=
  ∀ a b : List Byte, decodeText (a ++ 0x3D#8 :: b) = decodeText a

/-- Section 3 of 40_base32_decoder.md (R142, marked as derived): changing the case of letters changes nothing. -/
def Obligations.DecodeIgnoresCase : Prop :=
  ∀ t t' : List Byte, t.map upcase = t'.map upcase → decodeText t = decodeText t'

/-- Section 3 of 40_base32_decoder.md (R143, marked as derived): a text of `8j` data symbols decodes to `5j` bytes, and decoding
goes on after it as from the start. -/
def Obligations.DecodeHasPeriodEight : Prop :=
  ∀ (j : Nat) (t u : List Byte), t.length = 8 * j → (∀ c ∈ t, ∃ v, classify c = .data v) →
    ∃ o, decodeText t = .ok o ∧ o.length = 5 * j ∧ decodeText (t ++ u) = (decodeText u).map (o ++ ·)

/-- R169, R170: an `n`-digit code has `n` characters, and a shorter code is the last characters of every longer one, for
every keyed hash. -/
def Obligations.ShorterCodesAreSuffixes : Prop :=
  ∀ (hmac : List Byte → List Byte → Digest) (key : List Byte) (ctr : Word64) (m n : Nat), 6 ≤ m → m ≤ n → n ≤ 8 →
    ∃ short long : List Byte,
      hotpCode hmac key ctr m = .ok short ∧ hotpCode hmac key ctr n = .ok long ∧
      short.length = m ∧ long.length = n ∧ long.drop (n - m) = short

/-- Section 3 of 41_hotp_engine.md (R167, marked as derived): the rendered digits are the `n`-digit decimal form of `P mod 10^n`, each an
ASCII digit. -/
def Obligations.CodeIsDecimalOfTruncatedValue : Prop :=
  ∀ p n : Nat, (codeOf p n).length = n ∧ decimalValue (codeOf p n) = p % 10 ^ n ∧
    ∀ c ∈ codeOf p n, 0x30 ≤ c.toNat ∧ c.toNat ≤ 0x39

/-- R204, marked as derived: two times in the same window give the same code, for every keyed hash. -/
def Obligations.TotpIsConstantOnAWindow : Prop :=
  ∀ (hmac : List Byte → List Byte → Digest) (key : List Byte) (t0 ivl now now' : Word64) (k : Nat),
    ivl.toNat ≠ 0 →
    t0.toNat + k * ivl.toNat ≤ now.toNat → now.toNat ≤ t0.toNat + (k + 1) * ivl.toNat - 1 →
    t0.toNat + k * ivl.toNat ≤ now'.toNat → now'.toNat ≤ t0.toNat + (k + 1) * ivl.toNat - 1 →
    totpCode hmac key t0 ivl now = totpCode hmac key t0 ivl now' ∧
    totpCode hmac key t0 ivl now = hotpCode hmac key (BitVec.ofNat 64 k) 6
end

