-- ==== Sys2Proof/Laws/Claims.lean ====
section
/-! SUPPORT. Small facts about the terms of Safety.lean. -/

namespace Sys2Proof.Machine

/-- The OTP commands are the two rows of unit 2 (30_encoding.md R92). -/
theorem forOtp_iff (i : Instr) : forOtp i = true ↔ i = .otpTotp ∨ ∃ n, i = .otpHotp n := by
  have push : ∀ c : Byte, forOtp (.b32Push c) = false := by decide
  have hotp : ∀ n : BitVec 8, forOtp (.otpHotp n) = true := by decide
  cases i <;> simp only [reduceCtorEq, exists_false, or_false, or_true, iff_true, iff_false, push, hotp,
    Bool.false_eq_true, exists_eq', Instr.otpHotp.injEq, Bool.not_eq_true]
  all_goals rfl

@[simp] theorem mapNext_next (f : State → State) (s : State) : mapNext f (.next s) = .next (f s) := rfl
@[simp] theorem mapNext_refused (f : State → State) (r : Refusal) : mapNext f (.refused r) = .refused r := rfl

end Sys2Proof.Machine
end

