-- ==== Sys2Proof/Laws/State.lean ====
section
/-! SUPPORT. One lemma per field per update of State, so that no later proof unfolds a record update. -/

namespace Sys2Proof.Machine

variable (s : State) (u : B32) (o : Otp) (b : Bundle) (l : List Event)

@[simp] theorem State.setB32_b32 : (s.setB32 u).b32 = u := rfl
@[simp] theorem State.setB32_otp : (s.setB32 u).otp = s.otp := rfl
@[simp] theorem State.setB32_bundle : (s.setB32 u).bundle = s.bundle := rfl
@[simp] theorem State.setB32_pending : (s.setB32 u).pending = s.pending := rfl
@[simp] theorem State.setB32_params : (s.setB32 u).params = s.params := rfl

@[simp] theorem State.setOtp_b32 : (s.setOtp o).b32 = s.b32 := rfl
@[simp] theorem State.setOtp_otp : (s.setOtp o).otp = o := rfl
@[simp] theorem State.setOtp_bundle : (s.setOtp o).bundle = s.bundle := rfl
@[simp] theorem State.setOtp_pending : (s.setOtp o).pending = s.pending := rfl
@[simp] theorem State.setOtp_params : (s.setOtp o).params = s.params := rfl

@[simp] theorem State.setBundle_b32 : (s.setBundle b).b32 = s.b32 := rfl
@[simp] theorem State.setBundle_otp : (s.setBundle b).otp = s.otp := rfl
@[simp] theorem State.setBundle_bundle : (s.setBundle b).bundle = b := rfl
@[simp] theorem State.setBundle_pending : (s.setBundle b).pending = s.pending := rfl
@[simp] theorem State.setBundle_params : (s.setBundle b).params = s.params := rfl

@[simp] theorem State.setPending_b32 : (s.setPending l).b32 = s.b32 := rfl
@[simp] theorem State.setPending_otp : (s.setPending l).otp = s.otp := rfl
@[simp] theorem State.setPending_bundle : (s.setPending l).bundle = s.bundle := rfl
@[simp] theorem State.setPending_pending : (s.setPending l).pending = l := rfl
@[simp] theorem State.setPending_params : (s.setPending l).params = s.params := rfl

/-! Updates of one field overwrite, and updates of different fields commute. -/

@[simp] theorem State.setB32_setB32 (v : B32) : (s.setB32 u).setB32 v = s.setB32 v := rfl
@[simp] theorem State.setOtp_setOtp (v : Otp) : (s.setOtp o).setOtp v = s.setOtp v := rfl
@[simp] theorem State.setPending_setPending (k : List Event) : (s.setPending l).setPending k = s.setPending k := rfl
@[simp] theorem State.setB32_self : s.setB32 s.b32 = s := rfl
@[simp] theorem State.setOtp_self : s.setOtp s.otp = s := rfl
@[simp] theorem State.setPending_self : s.setPending s.pending = s := rfl
theorem State.setOtp_setB32 : (s.setB32 u).setOtp o = (s.setOtp o).setB32 u := rfl
theorem State.setPending_setB32 : (s.setB32 u).setPending l = (s.setPending l).setB32 u := rfl
theorem State.setPending_setOtp : (s.setOtp o).setPending l = (s.setPending l).setOtp o := rfl

/-! `CLEN` as a number (R38). -/

@[simp] theorem Otp.codeLength_of_none {v : Otp} (h : v.clen = none) : v.codeLength = 0 := by simp [Otp.codeLength, h]
@[simp] theorem Otp.codeLength_of_some {v : Otp} {n : DigitLen} (h : v.clen = some n) : v.codeLength = n.toNat := by
  simp [Otp.codeLength, h]

end Sys2Proof.Machine
end

