-- ==== Sys2Proof/Laws/Ops.lean ====
section
/-! SUPPORT. One lemma per shared operation that says everything it can do; later proofs cite these and do not unfold. -/

namespace Sys2Proof.Machine

/-! ## B32 operations -/

/-- Outside RUN the effect does not happen, inside it does (R144). -/
theorem whileRunning_run {s : State} (h : s.b32.ph = .run) (r : Result) : whileRunning s r = r := if_pos h

theorem whileRunning_stopped {s : State} (h : s.b32.ph ≠ .run) (r : Result) : whileRunning s r = .next s := if_neg h

theorem pushData_stopped {s : State} (h : s.b32.ph ≠ .run) (v : SymVal) : pushData v s = .next s := whileRunning_stopped h _
theorem pushPad_stopped {s : State} (h : s.b32.ph ≠ .run) : pushPad s = .next s := whileRunning_stopped h _
theorem pushInvalid_stopped {s : State} (h : s.b32.ph ≠ .run) : pushInvalid s = .next s := whileRunning_stopped h _

/-- A data symbol that answers a next state: nothing happened outside RUN, or action S<FILL> was done within the capacity. -/
theorem pushData_cases {v : SymVal} {s t : State} (h : pushData v s = .next t) :
    (s.b32.ph ≠ .run ∧ t = s) ∨
    (s.b32.ph = .run ∧ t = s.setB32 (s.b32.merged (accumulate s.b32.fill s.b32.acc v)) ∧
      ((accumulate s.b32.fill s.b32.acc v).emitted = none ∨ withinCap s.params.b32OutCap t.b32.out.length = true)) := by
  by_cases hp : s.b32.ph = .run
  · right
    simp only [pushData, whileRunning_run hp] at h
    split at h
    · cases h; exact ⟨hp, rfl, by assumption⟩
    · cases h
  · left
    rw [pushData_stopped hp] at h
    cases h; exact ⟨hp, rfl⟩

theorem pushPad_cases {s t : State} (h : pushPad s = .next t) :
    (s.b32.ph ≠ .run ∧ t = s) ∨ (s.b32.ph = .run ∧ t = s.setB32 { s.b32.discard with ph := .done }) := by
  by_cases hp : s.b32.ph = .run
  · rw [pushPad, whileRunning_run hp] at h; cases h; exact .inr ⟨hp, rfl⟩
  · rw [pushPad_stopped hp] at h; cases h; exact .inl ⟨hp, rfl⟩

theorem pushInvalid_cases {s t : State} (h : pushInvalid s = .next t) :
    (s.b32.ph ≠ .run ∧ t = s) ∨ (s.b32.ph = .run ∧ t = raiseDecodeError s) := by
  by_cases hp : s.b32.ph = .run
  · rw [pushInvalid, whileRunning_run hp] at h; cases h; exact .inr ⟨hp, rfl⟩
  · rw [pushInvalid_stopped hp] at h; cases h; exact .inl ⟨hp, rfl⟩

/-- An action emits nothing exactly while `FILL` is below 3 (R136). -/
theorem accumulate_emitted_none (f : Fin 8) (a : Byte) (v : SymVal) : (accumulate f a v).emitted = none ↔ f.val < 3 := by
  fin_cases f <;> simp [accumulate]

/-- Every action advances `FILL` by 5 modulo 8 (R21, R136). -/
theorem accumulate_fill (f : Fin 8) (a : Byte) (v : SymVal) : (accumulate f a v).fill = f + 5 := by
  fin_cases f <;> rfl

/-- With room, a data symbol in RUN completes with action S<FILL>. -/
theorem pushData_room {v : SymVal} {s : State} (hp : s.b32.ph = .run)
    (hr : s.b32.fill.val < 3 ∨ withinCap s.params.b32OutCap (s.b32.out.length + 1) = true) :
    pushData v s = .next (s.setB32 (s.b32.merged (accumulate s.b32.fill s.b32.acc v))) := by
  simp only [pushData, whileRunning_run hp]
  refine if_pos ?_
  rw [accumulate_emitted_none]
  by_cases hf : s.b32.fill.val < 3
  · exact .inl hf
  · right
    have hne : (accumulate s.b32.fill s.b32.acc v).emitted ≠ none := by rwa [Ne, accumulate_emitted_none]
    obtain ⟨b, hb⟩ := Option.ne_none_iff_exists'.mp hne
    simpa [B32.merged, hb] using hr.resolve_left hf

/-! ## OTP operations -/

theorem whenIdle_idle {s : State} (h : s.otp.ph.busy = false) (r : Result) : whenIdle s r = r := by simp [whenIdle, h]

theorem whenIdle_busy {s : State} (h : s.otp.ph.busy = true) (r : Result) : whenIdle s r = .refused .otpBusy := by
  simp [whenIdle, h]

/-- A call that opens latches its operands and starts at ENC, with the old result withdrawn (R160, R200). -/
theorem openCall_cases {key : List Byte} {ctr : Word64} {n : DigitLen} {s t : State} (h : openCall key ctr n s = .next t) :
    withinCap s.params.keyCap key.length = true ∧
    t = s.setOtp { s.otp.withdrawn with key := key, ctr := ctr, n := n, ph := .enc } := by
  unfold openCall at h
  split at h
  · cases h; exact ⟨by assumption, rfl⟩
  · cases h

theorem openCall_fits {key : List Byte} {ctr : Word64} {n : DigitLen} {s : State}
    (h : withinCap s.params.keyCap key.length = true) :
    openCall key ctr n s = .next (s.setOtp { s.otp.withdrawn with key := key, ctr := ctr, n := n, ph := .enc }) := if_pos h

/-- Everything a turn of the OTP unit can do when it answers a next state: the enabled stage of a busy unit, or nothing. -/
theorem otpStage_cases {s t : State} (h : otpStage s = .next t) :
    (s.otp.ph = .enc ∧ t = s.setOtp (stageEnc s.otp)) ∨
    (s.otp.ph = .hmac ∧ t = s.setOtp (stageHmac s.otp)) ∨
    (s.otp.ph = .trunc ∧ t = s.setOtp (stageTrunc s.otp)) ∨
    (s.otp.ph = .digit ∧ ∃ hi : s.otp.i.val < s.otp.n.toNat, t = s.setOtp (stageDigit s.otp hi)) ∨
    (s.otp.ph = .digit ∧ s.otp.i.val = s.otp.n.toNat ∧ t = s.setOtp (stageRender s.otp)) ∨
    (s.otp.ph.busy = false ∧ t = s) := by
  unfold otpStage at h
  split at h <;> rename_i hp
  · cases h; exact .inl ⟨hp, rfl⟩
  · cases h; exact .inr (.inl ⟨hp, rfl⟩)
  · cases h; exact .inr (.inr (.inl ⟨hp, rfl⟩))
  · split at h
    · rename_i hi; cases h; exact .inr (.inr (.inr (.inl ⟨hp, hi, rfl⟩)))
    · split at h
      · rename_i hi; cases h; exact .inr (.inr (.inr (.inr (.inl ⟨hp, hi, rfl⟩))))
      · cases h
  all_goals cases h; exact .inr (.inr (.inr (.inr (.inr ⟨by simp [hp, OtpPhase.busy], rfl⟩))))

/-- The legal digit lengths (R98). -/
theorem digitLen?_cases (n : BitVec 8) :
    (n = 6#8 ∧ digitLen? n = some .six) ∨ (n = 7#8 ∧ digitLen? n = some .seven) ∨ (n = 8#8 ∧ digitLen? n = some .eight) ∨
    (n ≠ 6#8 ∧ n ≠ 7#8 ∧ n ≠ 8#8 ∧ digitLen? n = none) := by
  unfold digitLen?
  split
  · exact .inl ⟨by assumption, rfl⟩
  · split
    · exact .inr (.inl ⟨by assumption, rfl⟩)
    · split
      · exact .inr (.inr (.inl ⟨by assumption, rfl⟩))
      · exact .inr (.inr (.inr ⟨by assumption, by assumption, by assumption, rfl⟩))

/-! ## The host's side -/

/-- Presenting operands touches the bundle only. -/
theorem presentOperands_eq (ops : Option Operands) (s : State) :
    ∃ b, presentOperands ops s = s.setBundle b ∧ (ops = none → b = s.bundle) ∧
      ∀ o, ops = some o → b = o.resolve s.b32 := by
  cases ops with
  | none => exact ⟨s.bundle, rfl, fun _ => rfl, by simp⟩
  | some o => exact ⟨o.resolve s.b32, rfl, by simp, by simp⟩

/-- What a step does with the next event, one case per kind of event. -/
theorem step_cases (s : State) :
    (s.pending = [] ∧ step s = otpStage s) ∨
    (∃ w ops rest i, s.pending = .issue w ops :: rest ∧ decodeCommand w = .ok i ∧
      step s = exec i (presentOperands ops (s.setPending rest))) ∨
    (∃ w ops rest why, s.pending = .issue w ops :: rest ∧ decodeCommand w = .error why ∧
      step s = .refused (.reservedWord w why)) ∨
    (∃ rest, s.pending = .waitB32 :: rest ∧ step s = waitUntil s.b32.finished rest s) ∨
    (∃ rest, s.pending = .waitOtp :: rest ∧ step s = waitUntil s.otp.finished rest s) ∨
    (∃ rest, s.pending = .otpTurn :: rest ∧ step s = otpStage (s.setPending rest)) ∨
    (∃ p rest, s.pending = .writePort p :: rest ∧ step s = .refused (.portWrite p)) ∨
    (∃ rest, s.pending = .reset :: rest ∧ step s = .next (applyReset (s.setPending rest))) := by
  rcases hp : s.pending with _ | ⟨e, rest⟩
  · exact .inl ⟨rfl, by simp [step, fetch, hp]⟩
  · right
    cases e with
    | issue w ops =>
      rcases hd : decodeCommand w with why | i
      · exact .inr (.inl ⟨w, ops, rest, why, rfl, hd, by simp [step, fetch, hp, hd]⟩)
      · exact .inl ⟨w, ops, rest, i, rfl, hd, by simp [step, fetch, hp, hd]⟩
    | waitB32 => exact .inr (.inr (.inl ⟨rest, rfl, by simp [step, fetch, hp]⟩))
    | waitOtp => exact .inr (.inr (.inr (.inl ⟨rest, rfl, by simp [step, fetch, hp]⟩)))
    | otpTurn => exact .inr (.inr (.inr (.inr (.inl ⟨rest, rfl, by simp [step, fetch, hp]⟩))))
    | writePort p => exact .inr (.inr (.inr (.inr (.inr (.inl ⟨p, rest, rfl, by simp [step, fetch, hp]⟩)))))
    | reset => exact .inr (.inr (.inr (.inr (.inr (.inr ⟨rest, rfl, by simp [step, fetch, hp]⟩)))))

end Sys2Proof.Machine
end

