-- ==== Sys2Proof/Laws/PerInstr.lean ====
section
/-! SUPPORT. Facts about every instruction as syntax, one lemma per constructor. -/

namespace Sys2Proof.Laws

/-- A well-formed instruction's word satisfies its row of the opcode table: `word & mask = match` (30_encoding.md R92, R106). -/
def TableRow.Statement (i : Instr) : Prop :=
  i.wf = true → (encode i).bits &&& i.matchMask.2 = i.matchMask.1

/-- The `imm8` of a `B32.PUSH` word stays out of its fixed bits. -/
theorem pushWord_mask : ∀ c : Byte, (commandWord 1#4 1#4 c).toNat &&& 0xFF00 = 0x1100 := by decide

/-- The `imm8` of an `OTP.HOTP` word stays out of its fixed bits. -/
theorem hotpWord_mask : ∀ n : BitVec 8, (commandWord 2#4 0#4 n).toNat &&& 0xFF00 = 0x2000 := by decide

theorem TableRow.b32Start : TableRow.Statement .b32Start := fun _ => by decide
theorem TableRow.b32Push (c : Byte) : TableRow.Statement (.b32Push c) := fun _ => pushWord_mask c
theorem TableRow.b32End : TableRow.Statement .b32End := fun _ => by decide
theorem TableRow.otpHotp (n : BitVec 8) : TableRow.Statement (.otpHotp n) := fun _ => hotpWord_mask n
theorem TableRow.otpTotp : TableRow.Statement .otpTotp := fun _ => by decide
theorem TableRow.symA : TableRow.Statement .symA := fun _ => by decide
theorem TableRow.symB : TableRow.Statement .symB := fun _ => by decide
theorem TableRow.symC : TableRow.Statement .symC := fun _ => by decide
theorem TableRow.symD : TableRow.Statement .symD := fun _ => by decide
theorem TableRow.symE : TableRow.Statement .symE := fun _ => by decide
theorem TableRow.symF : TableRow.Statement .symF := fun _ => by decide
theorem TableRow.symG : TableRow.Statement .symG := fun _ => by decide
theorem TableRow.symH : TableRow.Statement .symH := fun _ => by decide
theorem TableRow.symI : TableRow.Statement .symI := fun _ => by decide
theorem TableRow.symJ : TableRow.Statement .symJ := fun _ => by decide
theorem TableRow.symK : TableRow.Statement .symK := fun _ => by decide
theorem TableRow.symL : TableRow.Statement .symL := fun _ => by decide
theorem TableRow.symM : TableRow.Statement .symM := fun _ => by decide
theorem TableRow.symN : TableRow.Statement .symN := fun _ => by decide
theorem TableRow.symO : TableRow.Statement .symO := fun _ => by decide
theorem TableRow.symP : TableRow.Statement .symP := fun _ => by decide
theorem TableRow.symQ : TableRow.Statement .symQ := fun _ => by decide
theorem TableRow.symR : TableRow.Statement .symR := fun _ => by decide
theorem TableRow.symS : TableRow.Statement .symS := fun _ => by decide
theorem TableRow.symT : TableRow.Statement .symT := fun _ => by decide
theorem TableRow.symU : TableRow.Statement .symU := fun _ => by decide
theorem TableRow.symV : TableRow.Statement .symV := fun _ => by decide
theorem TableRow.symW : TableRow.Statement .symW := fun _ => by decide
theorem TableRow.symX : TableRow.Statement .symX := fun _ => by decide
theorem TableRow.symY : TableRow.Statement .symY := fun _ => by decide
theorem TableRow.symZ : TableRow.Statement .symZ := fun _ => by decide
theorem TableRow.symLowA : TableRow.Statement .symLowA := fun _ => by decide
theorem TableRow.symLowB : TableRow.Statement .symLowB := fun _ => by decide
theorem TableRow.symLowC : TableRow.Statement .symLowC := fun _ => by decide
theorem TableRow.symLowD : TableRow.Statement .symLowD := fun _ => by decide
theorem TableRow.symLowE : TableRow.Statement .symLowE := fun _ => by decide
theorem TableRow.symLowF : TableRow.Statement .symLowF := fun _ => by decide
theorem TableRow.symLowG : TableRow.Statement .symLowG := fun _ => by decide
theorem TableRow.symLowH : TableRow.Statement .symLowH := fun _ => by decide
theorem TableRow.symLowI : TableRow.Statement .symLowI := fun _ => by decide
theorem TableRow.symLowJ : TableRow.Statement .symLowJ := fun _ => by decide
theorem TableRow.symLowK : TableRow.Statement .symLowK := fun _ => by decide
theorem TableRow.symLowL : TableRow.Statement .symLowL := fun _ => by decide
theorem TableRow.symLowM : TableRow.Statement .symLowM := fun _ => by decide
theorem TableRow.symLowN : TableRow.Statement .symLowN := fun _ => by decide
theorem TableRow.symLowO : TableRow.Statement .symLowO := fun _ => by decide
theorem TableRow.symLowP : TableRow.Statement .symLowP := fun _ => by decide
theorem TableRow.symLowQ : TableRow.Statement .symLowQ := fun _ => by decide
theorem TableRow.symLowR : TableRow.Statement .symLowR := fun _ => by decide
theorem TableRow.symLowS : TableRow.Statement .symLowS := fun _ => by decide
theorem TableRow.symLowT : TableRow.Statement .symLowT := fun _ => by decide
theorem TableRow.symLowU : TableRow.Statement .symLowU := fun _ => by decide
theorem TableRow.symLowV : TableRow.Statement .symLowV := fun _ => by decide
theorem TableRow.symLowW : TableRow.Statement .symLowW := fun _ => by decide
theorem TableRow.symLowX : TableRow.Statement .symLowX := fun _ => by decide
theorem TableRow.symLowY : TableRow.Statement .symLowY := fun _ => by decide
theorem TableRow.symLowZ : TableRow.Statement .symLowZ := fun _ => by decide
theorem TableRow.sym2 : TableRow.Statement .sym2 := fun _ => by decide
theorem TableRow.sym3 : TableRow.Statement .sym3 := fun _ => by decide
theorem TableRow.sym4 : TableRow.Statement .sym4 := fun _ => by decide
theorem TableRow.sym5 : TableRow.Statement .sym5 := fun _ => by decide
theorem TableRow.sym6 : TableRow.Statement .sym6 := fun _ => by decide
theorem TableRow.sym7 : TableRow.Statement .sym7 := fun _ => by decide
theorem TableRow.symPad : TableRow.Statement .symPad := fun _ => by decide
theorem TableRow.symInvalid (c : Byte) : TableRow.Statement (.symInvalid c) := fun _ => Nat.and_zero _

end Sys2Proof.Laws
end

