-- ==== Sys2Proof/Laws/Symbol.lean ====
section
/-! SUPPORT. The Format S rows as classes: every row's meaning is one of the three shared symbol operations. -/

namespace Sys2Proof.Machine

/-- The class of a Format S row, from the opcode table's `class` and `v`; none for a command. -/
def rowClass : Instr → Option SymClass
  | .b32Start | .b32Push _ | .b32End | .otpHotp _ | .otpTotp => none
  | .symA => some (.data 0#5)
  | .symB => some (.data 1#5)
  | .symC => some (.data 2#5)
  | .symD => some (.data 3#5)
  | .symE => some (.data 4#5)
  | .symF => some (.data 5#5)
  | .symG => some (.data 6#5)
  | .symH => some (.data 7#5)
  | .symI => some (.data 8#5)
  | .symJ => some (.data 9#5)
  | .symK => some (.data 10#5)
  | .symL => some (.data 11#5)
  | .symM => some (.data 12#5)
  | .symN => some (.data 13#5)
  | .symO => some (.data 14#5)
  | .symP => some (.data 15#5)
  | .symQ => some (.data 16#5)
  | .symR => some (.data 17#5)
  | .symS => some (.data 18#5)
  | .symT => some (.data 19#5)
  | .symU => some (.data 20#5)
  | .symV => some (.data 21#5)
  | .symW => some (.data 22#5)
  | .symX => some (.data 23#5)
  | .symY => some (.data 24#5)
  | .symZ => some (.data 25#5)
  | .symLowA => some (.data 0#5)
  | .symLowB => some (.data 1#5)
  | .symLowC => some (.data 2#5)
  | .symLowD => some (.data 3#5)
  | .symLowE => some (.data 4#5)
  | .symLowF => some (.data 5#5)
  | .symLowG => some (.data 6#5)
  | .symLowH => some (.data 7#5)
  | .symLowI => some (.data 8#5)
  | .symLowJ => some (.data 9#5)
  | .symLowK => some (.data 10#5)
  | .symLowL => some (.data 11#5)
  | .symLowM => some (.data 12#5)
  | .symLowN => some (.data 13#5)
  | .symLowO => some (.data 14#5)
  | .symLowP => some (.data 15#5)
  | .symLowQ => some (.data 16#5)
  | .symLowR => some (.data 17#5)
  | .symLowS => some (.data 18#5)
  | .symLowT => some (.data 19#5)
  | .symLowU => some (.data 20#5)
  | .symLowV => some (.data 21#5)
  | .symLowW => some (.data 22#5)
  | .symLowX => some (.data 23#5)
  | .symLowY => some (.data 24#5)
  | .symLowZ => some (.data 25#5)
  | .sym2 => some (.data 26#5)
  | .sym3 => some (.data 27#5)
  | .sym4 => some (.data 28#5)
  | .sym5 => some (.data 29#5)
  | .sym6 => some (.data 30#5)
  | .sym7 => some (.data 31#5)
  | .symPad => some .pad
  | .symInvalid _ => some .invalid

/-- What a symbol of a class does (40_base32_decoder.md R122 to R126). -/
def pushClass (k : SymClass) (s : State) : Result :=
  match k with
  | .data v  => pushData v s
  | .pad     => pushPad s
  | .invalid => pushInvalid s

/-- The meaning of a Format S row is that of its class. -/
theorem exec_row {i : Instr} {k : SymClass} (h : rowClass i = some k) (s : State) : exec i s = pushClass k s := by
  cases i <;> cases h <;> rfl

/-- Outside RUN no class does anything (R144). -/
theorem pushClass_stopped {s : State} (h : s.b32.ph ≠ .run) (k : SymClass) : pushClass k s = .next s := by
  cases k
  · exact pushData_stopped h _
  · exact pushPad_stopped h
  · exact pushInvalid_stopped h

end Sys2Proof.Machine
end

