-- ==== Sys2Proof/Tests/Slice0.lean ====
section
/-! SUPPORT. Named tests, and a witness for the hypotheses of every obligation that has some. Expected results are from
spec/95_test_vectors.md, or worked by hand from the rule named beside them. -/

namespace Sys2Proof.Tests

open Sys2Proof.Machine

/-! ## Small states -/

/-- A decode in the middle: FILL, ACC and a finite or open capacity, with nothing emitted yet. -/
def decoding (fill : Fin 8) (acc : Byte) (cap : Option Nat) : State :=
  { State.reset with
    b32    := { B32.reset with fill := fill, acc := acc }
    params := { b32OutCap := cap, keyCap := none } }

/-- A decode that ended. -/
def ended (ph : B32Phase) (out : List Byte) (e : B32Ecode) : State :=
  { State.reset with b32 := { B32.reset with ph := ph, out := out, ecode := e } }

/-- An OTP unit in a phase, with a digit index. -/
def inPhase (ph : OtpPhase) (i : Fin 9) : State := { State.reset with otp := { Otp.reset with ph := ph, i := i } }

/-- The operand port presenting a time and an interval. -/
def timed (t0 ivl now : Word64) : State := { State.reset with bundle := { Bundle.empty with t0 := t0, ivl := ivl, now := now } }

/-- A one-byte key at the port of a block whose `KEY_CAP` is 0. -/
def keyTooLong : State :=
  { State.reset with
    bundle := { Bundle.empty with key := [0xAB#8], ivl := 30#64 }
    params := { b32OutCap := none, keyCap := some 0 } }

/-- The state after a completed step, if it completed. -/
def next? (r : Result) : Option State :=
  match r with
  | .next t => some t
  | .fault _ | .refused _ => none

/-- The B32 unit after a completed step. -/
def b32After (r : Result) : Option B32 := (next? r).map (·.b32)

/-- Phase, error code, `CLEN`, `CTR` and `N` of an OTP unit. -/
structure OtpView where
  ph    : OtpPhase
  ecode : OtpEcode
  clen  : Option DigitLen
  ctr   : Word64
  n     : DigitLen
  deriving DecidableEq

/-- What the tests look at in the OTP unit after a completed step. -/
def otpAfter (r : Result) : Option OtpView := (next? r).map fun t => ⟨t.otp.ph, t.otp.ecode, t.otp.clen, t.otp.ctr, t.otp.n⟩

/-- The name of a refusal, if the step refused. -/
def refusal? (r : Result) : Option Refusal :=
  match r with
  | .refused why => some why
  | .next _ | .fault _ => none

/-! ## WellFormed -/

/-- `A` has a row of its own, so it is no code of `SYM.INVALID` (R97, R106). -/
theorem test_wf_refuses_data_code : Instr.wf (.symInvalid 0x41#8) = false := by decide
theorem test_wf_refuses_pad_code : Instr.wf (.symInvalid 0x3D#8) = false := by decide
theorem test_wf_refuses_lowercase_code : Instr.wf (.symInvalid 0x7A#8) = false := by decide
/-- `9` is invalid (R97). -/
theorem test_wf_accepts_invalid_code : Instr.wf (.symInvalid 0x39#8) = true := by decide

/-! ## Decoding, each word written bit by bit: unit, op, imm8 (R91, R92); the symbol's ASCII code (R93) -/

theorem test_decode_b32Start : decodeWord (.command 0b0001_0000_00000000#16) = .ok .b32Start := by decide
theorem test_decode_b32Push : decodeWord (.command 0b0001_0001_01010011#16) = .ok (.b32Push 0x53#8) := by decide
theorem test_decode_b32End : decodeWord (.command 0b0001_0010_00000000#16) = .ok .b32End := by decide
theorem test_decode_otpHotp : decodeWord (.command 0b0010_0000_00000110#16) = .ok (.otpHotp 6#8) := by decide
theorem test_decode_otpTotp : decodeWord (.command 0b0010_0001_00000000#16) = .ok .otpTotp := by decide

theorem test_decode_upper :
    decodeWord (.symbol 0b01000001#8) = .ok .symA ∧ decodeWord (.symbol 0b01000010#8) = .ok .symB ∧
    decodeWord (.symbol 0b01000011#8) = .ok .symC ∧ decodeWord (.symbol 0b01000100#8) = .ok .symD ∧
    decodeWord (.symbol 0b01000101#8) = .ok .symE ∧ decodeWord (.symbol 0b01000110#8) = .ok .symF ∧
    decodeWord (.symbol 0b01000111#8) = .ok .symG ∧ decodeWord (.symbol 0b01001000#8) = .ok .symH ∧
    decodeWord (.symbol 0b01001001#8) = .ok .symI ∧ decodeWord (.symbol 0b01001010#8) = .ok .symJ ∧
    decodeWord (.symbol 0b01001011#8) = .ok .symK ∧ decodeWord (.symbol 0b01001100#8) = .ok .symL ∧
    decodeWord (.symbol 0b01001101#8) = .ok .symM ∧ decodeWord (.symbol 0b01001110#8) = .ok .symN ∧
    decodeWord (.symbol 0b01001111#8) = .ok .symO ∧ decodeWord (.symbol 0b01010000#8) = .ok .symP ∧
    decodeWord (.symbol 0b01010001#8) = .ok .symQ ∧ decodeWord (.symbol 0b01010010#8) = .ok .symR ∧
    decodeWord (.symbol 0b01010011#8) = .ok .symS ∧ decodeWord (.symbol 0b01010100#8) = .ok .symT ∧
    decodeWord (.symbol 0b01010101#8) = .ok .symU ∧ decodeWord (.symbol 0b01010110#8) = .ok .symV ∧
    decodeWord (.symbol 0b01010111#8) = .ok .symW ∧ decodeWord (.symbol 0b01011000#8) = .ok .symX ∧
    decodeWord (.symbol 0b01011001#8) = .ok .symY ∧ decodeWord (.symbol 0b01011010#8) = .ok .symZ := by decide

theorem test_decode_lower :
    decodeWord (.symbol 0b01100001#8) = .ok .symLowA ∧ decodeWord (.symbol 0b01100010#8) = .ok .symLowB ∧
    decodeWord (.symbol 0b01100011#8) = .ok .symLowC ∧ decodeWord (.symbol 0b01100100#8) = .ok .symLowD ∧
    decodeWord (.symbol 0b01100101#8) = .ok .symLowE ∧ decodeWord (.symbol 0b01100110#8) = .ok .symLowF ∧
    decodeWord (.symbol 0b01100111#8) = .ok .symLowG ∧ decodeWord (.symbol 0b01101000#8) = .ok .symLowH ∧
    decodeWord (.symbol 0b01101001#8) = .ok .symLowI ∧ decodeWord (.symbol 0b01101010#8) = .ok .symLowJ ∧
    decodeWord (.symbol 0b01101011#8) = .ok .symLowK ∧ decodeWord (.symbol 0b01101100#8) = .ok .symLowL ∧
    decodeWord (.symbol 0b01101101#8) = .ok .symLowM ∧ decodeWord (.symbol 0b01101110#8) = .ok .symLowN ∧
    decodeWord (.symbol 0b01101111#8) = .ok .symLowO ∧ decodeWord (.symbol 0b01110000#8) = .ok .symLowP ∧
    decodeWord (.symbol 0b01110001#8) = .ok .symLowQ ∧ decodeWord (.symbol 0b01110010#8) = .ok .symLowR ∧
    decodeWord (.symbol 0b01110011#8) = .ok .symLowS ∧ decodeWord (.symbol 0b01110100#8) = .ok .symLowT ∧
    decodeWord (.symbol 0b01110101#8) = .ok .symLowU ∧ decodeWord (.symbol 0b01110110#8) = .ok .symLowV ∧
    decodeWord (.symbol 0b01110111#8) = .ok .symLowW ∧ decodeWord (.symbol 0b01111000#8) = .ok .symLowX ∧
    decodeWord (.symbol 0b01111001#8) = .ok .symLowY ∧ decodeWord (.symbol 0b01111010#8) = .ok .symLowZ := by decide

theorem test_decode_digits :
    decodeWord (.symbol 0b00110010#8) = .ok .sym2 ∧ decodeWord (.symbol 0b00110011#8) = .ok .sym3 ∧
    decodeWord (.symbol 0b00110100#8) = .ok .sym4 ∧ decodeWord (.symbol 0b00110101#8) = .ok .sym5 ∧
    decodeWord (.symbol 0b00110110#8) = .ok .sym6 ∧ decodeWord (.symbol 0b00110111#8) = .ok .sym7 := by decide

theorem test_decode_pad : decodeWord (.symbol 0b00111101#8) = .ok .symPad := by decide
theorem test_decode_invalid : decodeWord (.symbol 0b00111001#8) = .ok (.symInvalid 0x39#8) := by decide

/-- R101, each way a word is reserved. -/
theorem test_decode_reserved :
    decodeCommand 0x0000#16 = .error .unit ∧ decodeCommand 0x3000#16 = .error .unit ∧
    decodeCommand 0xF000#16 = .error .unit ∧ decodeCommand 0x1300#16 = .error .op ∧
    decodeCommand 0x1F00#16 = .error .op ∧ decodeCommand 0x2200#16 = .error .op ∧
    decodeCommand 0x1001#16 = .error .imm8 ∧ decodeCommand 0x1280#16 = .error .imm8 ∧
    decodeCommand 0x2101#16 = .error .imm8 := by decide

/-- The opcode table's words: a Format K row, and a Format S row at each width its reader gives (log 7). -/
theorem test_decodeTableWord :
    decodeTableWord 16 0x2007 = some (.otpHotp 7#8) ∧ decodeTableWord 8 0x4A = some .symJ ∧
    decodeTableWord 16 0x4A = some .symJ ∧ decodeTableWord 8 0x00 = some (.symInvalid 0x00#8) ∧
    decodeTableWord 16 0x3000 = none := by decide

/-- Placed at the port, a symbol of the table is pushed and a command is issued (row 1 of 1.1; section 3.4). -/
theorem test_withFetchWord :
    b32After (step (State.reset.withFetchWord 8 0x4A)) = some ⟨.run, 5, 0x48#8, [], .ok⟩ ∧
    otpAfter (step (State.reset.withFetchWord 16 0x2009)) = some ⟨.fail, .invalidParameter, none, 0#64, .six⟩ ∧
    refusal? (step (State.reset.withFetchWord 16 0x1300)) = some (.reservedWord 0x1300#16 .op) := by decide

/-- The boundaries of section 2.3, and two codes the fold must not create. -/
theorem test_classify_boundaries :
    classify 0x31#8 = .invalid ∧ classify 0x32#8 = .data 26#5 ∧ classify 0x37#8 = .data 31#5 ∧
    classify 0x38#8 = .invalid ∧ classify 0x3C#8 = .invalid ∧ classify 0x3D#8 = .pad ∧ classify 0x3E#8 = .invalid ∧
    classify 0x40#8 = .invalid ∧ classify 0x41#8 = .data 0#5 ∧ classify 0x5A#8 = .data 25#5 ∧
    classify 0x5B#8 = .invalid ∧ classify 0x60#8 = .invalid ∧ classify 0x61#8 = .data 0#5 ∧
    classify 0x7A#8 = .data 25#5 ∧ classify 0x7B#8 = .invalid ∧ classify 0x1D#8 = .invalid ∧
    classify 0x12#8 = .invalid ∧ classify 0xE9#8 = .invalid ∧ classify 0xFF#8 = .invalid := by decide

/-! ## The accumulator (section 2.1) -/

theorem test_actions_without_emit :
    accumulate 0 0x00#8 31#5 = ⟨0xF8#8, 5, none⟩ ∧ accumulate 0 0x00#8 21#5 = ⟨0xA8#8, 5, none⟩ ∧
    accumulate 1 0x80#8 31#5 = ⟨0xFC#8, 6, none⟩ ∧ accumulate 1 0x00#8 21#5 = ⟨0x54#8, 6, none⟩ ∧
    accumulate 2 0xC0#8 31#5 = ⟨0xFE#8, 7, none⟩ ∧ accumulate 2 0x80#8 10#5 = ⟨0x94#8, 7, none⟩ := by decide

theorem test_actions_with_emit :
    accumulate 3 0xA0#8 10#5 = ⟨0x00#8, 0, some 0xAA#8⟩ ∧ accumulate 3 0xE0#8 0#5 = ⟨0x00#8, 0, some 0xE0#8⟩ ∧
    accumulate 4 0xF0#8 31#5 = ⟨0x80#8, 1, some 0xFF#8⟩ ∧ accumulate 4 0x00#8 21#5 = ⟨0x80#8, 1, some 0x0A#8⟩ ∧
    accumulate 5 0xF8#8 31#5 = ⟨0xC0#8, 2, some 0xFF#8⟩ ∧ accumulate 5 0xA8#8 10#5 = ⟨0x80#8, 2, some 0xAA#8⟩ ∧
    accumulate 6 0xFC#8 31#5 = ⟨0xE0#8, 3, some 0xFF#8⟩ ∧ accumulate 6 0xA8#8 10#5 = ⟨0x40#8, 3, some 0xA9#8⟩ ∧
    accumulate 7 0xFE#8 31#5 = ⟨0xF0#8, 4, some 0xFF#8⟩ ∧ accumulate 7 0x00#8 21#5 = ⟨0x50#8, 4, some 0x01#8⟩ := by decide

/-! ## B32 instructions -/

/-- R120 from a failed decode (program 2, after checkpoint C). -/
theorem test_start_after_failure :
    b32After (exec .b32Start (ended .fail [] .decodeError)) = some ⟨.run, 0, 0x00#8, [], .ok⟩ := by decide

/-- Row 2 of 1.1: `B` in state 5 emits 48. -/
theorem test_push_data : b32After (exec (.b32Push 0x42#8) (decoding 5 0x48#8 none)) = some ⟨.run, 2, 0x40#8, [0x48#8], .ok⟩ := by decide
/-- Row 8 of 1.2: the leftover bits of state 3 are discarded. -/
theorem test_push_pad : b32After (exec (.b32Push 0x3D#8) (decoding 3 0xE0#8 none)) = some ⟨.done, 0, 0x00#8, [], .ok⟩ := by decide
/-- `"77"`: the leftover `11` is dropped at the end of input. -/
theorem test_end_discards : b32After (exec .b32End (decoding 2 0xC0#8 none)) = some ⟨.done, 0, 0x00#8, [], .ok⟩ := by decide
/-- Program 2, checkpoint A: an end after the stop is ignored. -/
theorem test_end_ignored :
    b32After (exec .b32End (ended .done [0x66#8] .ok)) = some ⟨.done, 0, 0x00#8, [0x66#8], .ok⟩ := by decide
/-- Program 2, checkpoint B: a data symbol after the stop is ignored. -/
theorem test_row_ignored :
    b32After (exec .symM (ended .done [0x66#8] .ok)) = some ⟨.done, 0, 0x00#8, [0x66#8], .ok⟩ := by decide

/-- Characters of 1.1 and 1.2 pin these rows: J, W, Y, P, and program 2's `m`. -/
theorem test_letter_rows :
    b32After (exec .symJ (decoding 0 0x00#8 none)) = some ⟨.run, 5, 0x48#8, [], .ok⟩ ∧
    b32After (exec .symW (decoding 7 0x64#8 none)) = some ⟨.run, 4, 0x60#8, [0x65#8], .ok⟩ ∧
    b32After (exec .symY (decoding 4 0x60#8 none)) = some ⟨.run, 1, 0x00#8, [0x6C#8], .ok⟩ ∧
    b32After (exec .symP (decoding 3 0x60#8 none)) = some ⟨.run, 0, 0x00#8, [0x6F#8], .ok⟩ ∧
    b32After (exec .symLowM (decoding 0 0x00#8 none)) = some ⟨.run, 5, 0x60#8, [], .ok⟩ := by decide

/-- Rows 1, 2 and 5 of 1.2. -/
theorem test_digit_rows :
    b32After (exec .sym3 (decoding 0 0x00#8 none)) = some ⟨.run, 5, 0xD8#8, [], .ok⟩ ∧
    b32After (exec .sym2 (decoding 5 0xD8#8 none)) = some ⟨.run, 2, 0x80#8, [0xDE#8], .ok⟩ ∧
    b32After (exec .sym5 (decoding 4 0xB0#8 none)) = some ⟨.run, 1, 0x80#8, [0xBE#8], .ok⟩ := by decide

/-- 1.3: `9` withdraws the bytes already emitted. -/
theorem test_invalid_row :
    b32After (exec (.symInvalid 0x39#8) { decoding 4 0xB0#8 none with b32 := ⟨.run, 4, 0xB0#8, [0xDE#8, 0xAD#8], .ok⟩ }) =
      some ⟨.fail, 0, 0x00#8, [], .decodeError⟩ := by decide

/-- R137, U5: a byte beyond a capacity of 0 is refused, and state 2, which emits nothing, goes on. -/
theorem test_capacity :
    refusal? (exec .symA (decoding 3 0x00#8 (some 0))) = some .outCapacity ∧
    b32After (exec .symA (decoding 2 0x00#8 (some 0))) = some ⟨.run, 7, 0x00#8, [], .ok⟩ := by decide

/-- 2.2: `"7777777"`, `"MY=9"`, `"MY9="`, by the function of R139. -/
theorem test_decodeText :
    (decodeText [0x37#8, 0x37#8, 0x37#8, 0x37#8, 0x37#8, 0x37#8, 0x37#8]).toOption = some [0xFF#8, 0xFF#8, 0xFF#8, 0xFF#8] ∧
    (decodeText [0x4D#8, 0x59#8, 0x3D#8, 0x39#8]).toOption = some [0x66#8] ∧
    (decodeText [0x4D#8, 0x59#8, 0x39#8, 0x3D#8]).toOption = none := by decide

/-! ## OTP instructions (sections 3.4 and 4) -/

theorem test_hotp_rejects :
    otpAfter (exec (.otpHotp 5#8) State.reset) = some ⟨.fail, .invalidParameter, none, 0#64, .six⟩ ∧
    otpAfter (exec (.otpHotp 0xFF#8) State.reset) = some ⟨.fail, .invalidParameter, none, 0#64, .six⟩ := by decide

theorem test_hotp_accepts :
    otpAfter (exec (.otpHotp 8#8) { State.reset with bundle := { Bundle.empty with ctr := 9#64 } }) =
      some ⟨.enc, .ok, none, 9#64, .eight⟩ := by decide

theorem test_totp_counters :
    otpAfter (exec .otpTotp (timed 100#64 30#64 130#64)) = some ⟨.enc, .ok, none, 1#64, .six⟩ ∧
    otpAfter (exec .otpTotp (timed 0#64 30#64 29#64)) = some ⟨.enc, .ok, none, 0#64, .six⟩ := by decide

theorem test_totp_wide_counters :
    otpAfter (exec .otpTotp (timed 5#64 18446744073709551615#64 18446744073709551615#64)) =
      some ⟨.enc, .ok, none, 0#64, .six⟩ ∧
    otpAfter (exec .otpTotp (timed 0#64 30#64 18446744073709551615#64)) =
      some ⟨.enc, .ok, none, 614891469123651720#64, .six⟩ := by decide

theorem test_totp_rejects :
    otpAfter (exec .otpTotp (timed 100#64 30#64 99#64)) = some ⟨.fail, .invalidParameter, none, 0#64, .six⟩ ∧
    otpAfter (exec .otpTotp (timed 0#64 0#64 5#64)) = some ⟨.fail, .invalidParameter, none, 0#64, .six⟩ := by decide

/-! ## Stages (sections 1.5, 3.1, program 3) -/

/-- 1.5: the counter 123456789123456789 big-endian. -/
theorem test_enc_bytes :
    (bigEndian8 123456789123456789#64).toList = [0x01#8, 0xB6#8, 0x9B#8, 0x4B#8, 0xAC#8, 0xD0#8, 0x5F#8, 0x15#8] := by decide

/-- The digest of 1.5, row 2: `OFF` 8, and bit 31 of the window cleared. -/
def maskedDigest : Digest :=
  #v[0x2C#8, 0x75#8, 0xF3#8, 0x59#8, 0x6B#8, 0xE6#8, 0xDB#8, 0x5E#8, 0x82#8, 0x6E#8,
     0xCA#8, 0x03#8, 0xB2#8, 0x5B#8, 0x81#8, 0xA9#8, 0x5D#8, 0x15#8, 0x4D#8, 0x28#8]

/-- The digest of 3.1, row 8: `OFF` 15, `P` 42. -/
def lastWindow : Digest :=
  #v[0xAA#8, 0xAA#8, 0xAA#8, 0xAA#8, 0xAA#8, 0xAA#8, 0xAA#8, 0xAA#8, 0xAA#8, 0xAA#8,
     0xAA#8, 0xAA#8, 0xAA#8, 0xAA#8, 0xAA#8, 0x00#8, 0x00#8, 0x00#8, 0x2A#8, 0xFF#8]

theorem test_truncation :
    truncOffset maskedDigest = 8#4 ∧ truncValue maskedDigest = 40815107#31 ∧
    truncOffset lastWindow = 15#4 ∧ truncValue lastWindow = 42#31 := by decide

/-- Program 3: the first DIGIT step of `P` = 118724477 gives 7 and 11872447. -/
theorem test_digit_step :
    ((next? (otpStage { inPhase .digit 0 with otp := { Otp.reset with ph := .digit, q := 118724477#31 } })).map
      fun t => (t.otp.dig[0], t.otp.q, t.otp.i, t.otp.ph)) = some (7, 11872447#31, 1, .digit) := by decide

/-- R38, R47: `CLEN` as the host reads it, 8 for a code of eight digits, and 0 in IDLE; R41: `ECODE` 2 after a failure. -/
theorem test_ports :
    ((next? (otpStage { inPhase .digit 8 with otp := { Otp.reset with ph := .digit, i := 8, n := .eight } })).map
      (readPort .otpClen)) = some (.number 8) ∧
    readPort .otpClen State.reset = .number 0 ∧
    ((next? (exec (.otpHotp 5#8) State.reset)).map (readPort .otpEcode)) = some (.number 2) := by decide

/-- R165's example: `DIG` 7, 7, 4, 4, 2, 7 renders as `724477` and two zero cells. -/
theorem test_render :
    (rendered .six #v[7, 7, 4, 4, 2, 7, 0, 0]).toList =
      [0x37#8, 0x32#8, 0x34#8, 0x34#8, 0x37#8, 0x37#8, 0x00#8, 0x00#8] := by decide

/-- 1.5 and 3.1 with a constant hash: `0815107` and `00000042`. -/
theorem test_hotpCode :
    (hotpCode (fun _ _ => maskedDigest) [] 0#64 7).toOption = some [0x30#8, 0x38#8, 0x31#8, 0x35#8, 0x31#8, 0x30#8, 0x37#8] ∧
    (hotpCode (fun _ _ => lastWindow) [] 0#64 8).toOption =
      some [0x30#8, 0x30#8, 0x30#8, 0x30#8, 0x30#8, 0x30#8, 0x34#8, 0x32#8] := by decide

/-! ## Witnesses: for each obligation with hypotheses, inputs that meet all of them, at the edges of each clause -/

theorem witness_ReservedWordsAreRefused :
    (State.reset.setPending [.issue 0x1001#16 none]).pending = .issue 0x1001#16 none :: [] := rfl

/-- A row with no operand at its only word, and the operand rows at both ends of theirs. -/
theorem witness_CommandWordsOfTheOpcodeMap :
    (0x1000#16 &&& 0xFFFF#16 = 0x1000#16) ∧ (0x1100#16 &&& 0xFF00#16 = 0x1100#16) ∧ (0x11FF#16 &&& 0xFF00#16 = 0x1100#16) ∧
    (0x1200#16 &&& 0xFFFF#16 = 0x1200#16) ∧ (0x2000#16 &&& 0xFF00#16 = 0x2000#16) ∧ (0x20FF#16 &&& 0xFF00#16 = 0x2000#16) ∧
    (0x2100#16 &&& 0xFFFF#16 = 0x2100#16) := by decide

theorem witness_EncodeDecodeRoundTrip :
    Instr.wf (.symInvalid 0x40#8) = true ∧ Instr.wf (.b32Push 0xFF#8) = true ∧ Instr.wf (.otpHotp 0x00#8) = true := by decide

theorem witness_DecodedWordEncodesBack :
    decodeWord (.command 0x20FF#16) = .ok (.otpHotp 0xFF#8) ∧ decodeWord (.symbol 0x7B#8) = .ok (.symInvalid 0x7B#8) := by decide

/-- Each way the hypothesis holds: stopped, a symbol without a value though the output is full, and room. -/
theorem witness_PushCompletesByClass :
    (ended .done [] .ok).b32.ph ≠ .run ∧ val? (upcase 0x3D#8) = none ∧ val? (upcase 0x39#8) = none ∧
    (decoding 2 0x00#8 (some 0)).room ∧ (decoding 3 0x00#8 (some 1)).room := by
  exact ⟨by decide, by decide, by decide, Or.inl (by decide), Or.inr (by decide)⟩

theorem witness_StoppedDecodeIgnoresSymbols :
    (forOtp .symA = false ∧ forOtp (.b32Push 0x41#8) = false ∧ forOtp .b32End = false) ∧
    Instr.symA ≠ .b32Start ∧ (ended .fail [] .decodeError).b32.ph ≠ .run ∧ (ended .done [] .ok).b32.ph ≠ .run := by decide

theorem witness_UppercaseRowsMergeTheirValue :
    ((0x41#8, Instr.symA) ∈ upperRows ∧ (0x5A#8, Instr.symZ) ∈ upperRows) ∧
    (decoding 7 0xFE#8 (some 1)).b32.ph = .run ∧ (decoding 7 0xFE#8 (some 1)).room := by
  exact ⟨by decide, rfl, Or.inr (by decide)⟩

theorem witness_LowercaseRowsMergeTheirValue :
    ((0x61#8, Instr.symLowA) ∈ lowerRows ∧ (0x7A#8, Instr.symLowZ) ∈ lowerRows) ∧
    (decoding 2 0xC0#8 none).b32.ph = .run ∧ (decoding 2 0xC0#8 none).room := by
  exact ⟨by decide, rfl, Or.inl (by decide)⟩

theorem witness_DigitRowsMergeTheirValue :
    ((0x32#8, Instr.sym2) ∈ digitRows ∧ (0x37#8, Instr.sym7) ∈ digitRows) ∧
    (decoding 3 0xE0#8 none).b32.ph = .run ∧ (decoding 3 0xE0#8 none).room := by
  exact ⟨by decide, rfl, Or.inr (by decide)⟩

theorem witness_PadStopsTheDecode : (decoding 3 0xE0#8 none).b32.ph = .run := rfl
theorem witness_InvalidSymbolRaisesDecodeError : (decoding 7 0xFE#8 none).b32.ph = .run := rfl

theorem witness_FullOutputRefusesDataSymbols :
    (0x41#8, Instr.symA) ∈ upperRows ++ lowerRows ++ digitRows ∧ (decoding 3 0x00#8 (some 0)).b32.ph = .run ∧
    ¬ (decoding 3 0x00#8 (some 0)).room := by
  refine ⟨by decide, rfl, ?_⟩
  unfold State.room
  decide

theorem witness_ActionsThatDoNotEmit :
    (0x00#8 : Byte) = 0#8 ∧ (0x80#8 : Byte).toNat % 2 ^ 7 = 0 ∧ (0xC0#8 : Byte).toNat % 2 ^ 6 = 0 := by decide

theorem witness_ActionsThatEmit :
    (0xE0#8 : Byte).toNat % 2 ^ 5 = 0 ∧ (0xF0#8 : Byte).toNat % 2 ^ 4 = 0 ∧ (0xF8#8 : Byte).toNat % 2 ^ 3 = 0 ∧
    (0xFC#8 : Byte).toNat % 2 ^ 2 = 0 ∧ (0xFE#8 : Byte).toNat % 2 ^ 1 = 0 := by decide

theorem witness_HotpAcceptsLegalLength :
    ((6#8).toNat = DigitLen.six.toNat ∧ (7#8).toNat = DigitLen.seven.toNat ∧ (8#8).toNat = DigitLen.eight.toNat) ∧
    (inPhase .done 0).otp.ph.busy = false ∧ (inPhase .fail 0).otp.ph.busy = false ∧
    withinCap State.reset.params.keyCap State.reset.bundle.key.length = true := by decide

theorem witness_HotpRejectsOtherLengths :
    ((5#8).toNat ≠ 6 ∧ (5#8).toNat ≠ 7 ∧ (5#8).toNat ≠ 8) ∧ ((9#8).toNat ≠ 6 ∧ (9#8).toNat ≠ 7 ∧ (9#8).toNat ≠ 8) ∧
    (inPhase .idle 0).otp.ph.busy = false := by decide

/-- `now = t0` is the edge of acceptance (R200). -/
theorem witness_TotpAcceptsWithFloorCounter :
    (timed 7#64 1#64 7#64).otp.ph.busy = false ∧ (timed 7#64 1#64 7#64).bundle.ivl.toNat ≠ 0 ∧
    (timed 7#64 1#64 7#64).bundle.t0.toNat ≤ (timed 7#64 1#64 7#64).bundle.now.toNat ∧
    withinCap (timed 7#64 1#64 7#64).params.keyCap (timed 7#64 1#64 7#64).bundle.key.length = true := by decide

theorem witness_TotpRejectsZeroIntervalAndEarlyTime :
    (timed 0#64 0#64 0#64).otp.ph.busy = false ∧ (timed 0#64 0#64 0#64).bundle.ivl.toNat = 0 ∧
    (timed 100#64 30#64 99#64).bundle.now.toNat < (timed 100#64 30#64 99#64).bundle.t0.toNat := by decide

theorem witness_TotpDelegatesToHotp :
    (timed 100#64 30#64 130#64).otp.ph.busy = false ∧ (timed 100#64 30#64 130#64).bundle.ivl.toNat ≠ 0 ∧
    (timed 100#64 30#64 130#64).bundle.t0.toNat ≤ (timed 100#64 30#64 130#64).bundle.now.toNat ∧
    (1#64).toNat = ((timed 100#64 30#64 130#64).bundle.now.toNat - (timed 100#64 30#64 130#64).bundle.t0.toNat) /
      (timed 100#64 30#64 130#64).bundle.ivl.toNat := by decide

theorem witness_BusyOtpUnitRefusesOtpCommandsOnly :
    (inPhase .enc 0).otp.ph.busy = true ∧ (inPhase .hmac 0).otp.ph.busy = true ∧ (inPhase .trunc 0).otp.ph.busy = true ∧
    (inPhase .digit 8).otp.ph.busy = true ∧ forOtp .symA = false ∧ (inPhase .hmac 0).room := by
  exact ⟨by decide, by decide, by decide, by decide, by decide, Or.inl (by decide)⟩

theorem witness_KeyBeyondCapacityIsRefused :
    keyTooLong.otp.ph.busy = false ∧ withinCap keyTooLong.params.keyCap keyTooLong.bundle.key.length = false ∧
    digitLen? 6#8 = some .six ∧ keyTooLong.bundle.ivl.toNat ≠ 0 ∧
    keyTooLong.bundle.t0.toNat ≤ keyTooLong.bundle.now.toNat := by decide

theorem witness_EncWritesBigEndianCounter : (inPhase .enc 0).otp.ph = .enc := rfl
theorem witness_HmacAnswersTheRequest : (inPhase .hmac 0).otp.ph = .hmac := rfl
theorem witness_TruncTakesMaskedWindow : (inPhase .trunc 0).otp.ph = .trunc := rfl

theorem witness_DigitTakesModAndDivByTen :
    (inPhase .digit 5).otp.ph = .digit ∧ (inPhase .digit 5).otp.i.val < (inPhase .digit 5).otp.n.toNat := by decide

theorem witness_RenderReversesDigits :
    (inPhase .digit 6).otp.ph = .digit ∧ (inPhase .digit 6).otp.i.val = (inPhase .digit 6).otp.n.toNat := by decide

theorem witness_StagesShowResultsOnlyAtRender :
    (∃ t, otpStage (inPhase .enc 0) = .next t) ∧ ∃ t, otpStage (inPhase .digit 6) = .next t ∧ t.otp.ph = .done :=
  ⟨⟨_, rfl⟩, _, rfl, rfl⟩

theorem witness_HmacRequestLifecycle :
    (∃ t, step (inPhase .enc 0) = .next t ∧ t.otp.request ≠ (inPhase .enc 0).otp.request) ∧
    (∃ t, step (inPhase .hmac 0) = .next t ∧ t.otp.request ≠ (inPhase .hmac 0).otp.request) ∧
    ∃ t, step ((inPhase .hmac 0).setPending [.reset]) = .next t ∧ t.otp.request ≠ (inPhase .hmac 0).otp.request :=
  ⟨⟨_, rfl, by decide⟩, ⟨_, rfl, nofun⟩, ⟨_, rfl, by decide⟩⟩

theorem witness_StepRunsTheIssuedCommand :
    (State.reset.setPending [hotpEvent 6#8 0#64 .b32Out]).pending =
      .issue 0x2006#16 (some ⟨.b32Out, 0#64, 0#64, 0#64, 0#64⟩) :: [] ∧
    decodeCommand 0x2006#16 = .ok (.otpHotp 6#8) := by decide

theorem witness_StepRunsTheTableWord :
    decodeTableWord 16 0x1153 = some (.b32Push 0x53#8) ∧ decodeTableWord 8 0x53 = some .symS := by decide

/-- Each clause: nothing pending, a turn, and each wait with its condition true and false. -/
theorem witness_StepWithoutACommand :
    State.reset.pending = [] ∧ (State.reset.setPending [.otpTurn]).pending = .otpTurn :: [] ∧
    (State.reset.setPending [.waitB32]).pending = .waitB32 :: [] ∧ State.reset.b32.ph = .run ∧
    ((ended .fail [] .decodeError).setPending [.waitB32]).b32.ph ≠ .run ∧
    (State.reset.setPending [.waitOtp]).pending = .waitOtp :: [] ∧ State.reset.otp.ph = .idle ∧
    ((inPhase .done 0).setPending [.waitOtp]).otp.ph = .done ∧ State.reset.otp.ph.busy = false := by decide

theorem witness_PortWritesAreRefused :
    (State.reset.setPending [.writePort .b32Ph]).pending = .writePort .b32Ph :: [] := rfl

theorem witness_KeyHandOverFromB32 :
    (6#8).toNat = DigitLen.six.toNat ∧ (ended .done [0xFF#8] .ok).otp.ph.busy = false ∧
    withinCap (ended .done [0xFF#8] .ok).params.keyCap (ended .done [0xFF#8] .ok).b32.out.length = true := by decide

theorem witness_ResetAbandonsTheCall :
    ((inPhase .hmac 0).setPending [.reset, .waitOtp]).pending = .reset :: [.waitOtp] := rfl

theorem witness_CommandFrame :
    (forOtp .b32End = false ∧ ∃ t, exec .b32End (decoding 3 0xE0#8 none) = .next t) ∧
    forOtp .otpTotp = true ∧ ∃ t, exec .otpTotp (timed 0#64 30#64 59#64) = .next t :=
  ⟨⟨by decide, _, rfl⟩, by decide, _, rfl⟩

theorem witness_DataSymbolFrame :
    (0x37#8, Instr.sym7) ∈ upperRows ++ lowerRows ++ digitRows ∧ (∃ t, exec .sym7 (decoding 7 0x00#8 none) = .next t) ∧
    ∃ t, exec (.b32Push 0x37#8) (decoding 0 0x00#8 none) = .next t :=
  ⟨by decide, ⟨_, rfl⟩, _, rfl⟩

theorem witness_UnitsShareNoState : forOtp .symPad = false ∧ forOtp (.otpHotp 5#8) = true := by decide

theorem witness_UnitsCommute :
    forOtp .symLowA = false ∧ (∃ t, exec .symLowA (timed 0#64 30#64 29#64) = .next t) ∧ forOtp .otpTotp = true ∧
    (∃ u, exec .otpTotp (timed 0#64 30#64 29#64) = .next u) ∧ ∃ u, otpStage (timed 0#64 30#64 29#64) = .next u :=
  ⟨by decide, ⟨_, rfl⟩, by decide, ⟨_, rfl⟩, _, rfl⟩

/-- A decode that has consumed `3` (row 1 of 1.2), about to take `2`. -/
theorem witness_StepKeepsRegisterInvariant :
    ((decoding 5 0xD8#8 (some 1)).setPending [pushEvent 0x32#8]).Ok ∧
    ∃ t, step ((decoding 5 0xD8#8 (some 1)).setPending [pushEvent 0x32#8]) = .next t := by
  refine ⟨⟨⟨?_, ?_, ?_, ?_, ?_, ?_⟩, ⟨?_, ?_, ?_, ?_, ?_⟩, ?_⟩, _, rfl⟩ <;> decide

/-- A call whose digest has just arrived. -/
theorem witness_StepKeepsCallTrace :
    Otp.Traced { Otp.reset with ph := .trunc, hash := Config.hmac [] (counterBytes 0#64) } ∧
    ∃ t, step { State.reset with otp := { Otp.reset with ph := .trunc, hash := Config.hmac [] (counterBytes 0#64) } } = .next t := by
  refine ⟨⟨fun _ => by decide, fun _ => rfl, ?_, ?_, ?_, ?_⟩, _, rfl⟩
  · rintro (h | h) <;> cases h
  · exact nofun
  · exact nofun
  · exact nofun

/-- Both the completing and the failing form of the call, with a key taken from `B32.OUT`. -/
theorem witness_HotpCallYieldsItsCode :
    (ended .done [0xFF#8] .ok).otp.ph.busy = false ∧
    withinCap (ended .done [0xFF#8] .ok).params.keyCap (KeySource.resolve .b32Out (ended .done [0xFF#8] .ok).b32).length = true ∧
    (8#8).toNat = 8 ∧ ¬((5#8).toNat = 6 ∨ (5#8).toNat = 7 ∨ (5#8).toNat = 8) := by decide

theorem witness_TotpCallYieldsItsCode :
    State.reset.otp.ph.busy = false ∧
    withinCap State.reset.params.keyCap (KeySource.resolve (.bytes [0xFF#8]) State.reset.b32).length = true ∧
    (0#64).toNat = 0 ∧ (99#64).toNat < (100#64).toNat ∧ ¬((30#64).toNat = 0 ∨ (100#64).toNat < (100#64).toNat) := by decide

/-- Eight symbols make five bytes, which a capacity of 5 just holds. -/
theorem witness_DecodeCallYieldsItsText :
    withinCap (decoding 0 0x00#8 (some 5)).params.b32OutCap (5 * (List.replicate 8 (0x37#8 : Byte)).length / 8) = true := by decide

theorem witness_DecodedBytesAreTheBitString : decodeText [0x4D#8, 0x59#8] = .ok [0x66#8] := rfl

theorem witness_DecodeIgnoresCase :
    ([0x6D#8, 0x59#8] : List Byte).map upcase = ([0x4D#8, 0x79#8] : List Byte).map upcase := by decide

theorem witness_DecodeHasPeriodEight :
    (List.replicate 8 (0x37#8 : Byte)).length = 8 * 1 ∧ ∀ c ∈ List.replicate 8 (0x37#8 : Byte), ∃ v, classify c = .data v :=
  ⟨rfl, fun _ h => ⟨31#5, by rw [List.eq_of_mem_replicate h]; decide⟩⟩

theorem witness_ShorterCodesAreSuffixes : 6 ≤ 6 ∧ 6 ≤ 8 ∧ 8 ≤ 8 := by decide

/-- Both ends of the second window of 30 seconds from 100. -/
theorem witness_TotpIsConstantOnAWindow :
    (30#64).toNat ≠ 0 ∧ (100#64).toNat + 1 * (30#64).toNat ≤ (130#64).toNat ∧
    (130#64).toNat ≤ (100#64).toNat + (1 + 1) * (30#64).toNat - 1 ∧
    (100#64).toNat + 1 * (30#64).toNat ≤ (159#64).toNat ∧
    (159#64).toNat ≤ (100#64).toNat + (1 + 1) * (30#64).toNat - 1 := by decide

end Sys2Proof.Tests
end

section
/-! The state after reset (10_state.md R46). -/

namespace Sys2Proof.Machine

/-- No code is visible after reset: every cell of `CODE` is 0 (R46). -/
@[simp] theorem Otp.reset_code_getElem {j : Nat} (h : j < 8) : Otp.reset.code[j] = 0#8 := Vector.getElem_replicate h

/-- Settles O40: each scalar register stands in the reset record as R46 gives it; `CODE` is read cell by cell. -/
theorem resetValues : Obligations.ResetValues := by
  have hcode : ∀ j : Fin 8, State.reset.otp.code[j.val] = 0#8 := fun j => Otp.reset_code_getElem j.isLt
  exact ⟨rfl, rfl, rfl, rfl, rfl, rfl, rfl, rfl, hcode⟩

end Sys2Proof.Machine
end

section
/-! The decoder of Format K (30_encoding.md R91, R92, R100, R101). -/

namespace Sys2Proof

section
variable (w : CommandWord) (unit op : BitVec 4) (imm8 : Byte)

/-! A command word and its three fields determine each other (R91). -/

@[simp] theorem unitField_commandWord : unitField (commandWord unit op imm8) = unit :=
  (BitVec.extractLsb'_append_eq_of_le (by decide)).trans BitVec.extractLsb'_append_eq_left

@[simp] theorem opField_commandWord : opField (commandWord unit op imm8) = op :=
  (BitVec.extractLsb'_append_eq_of_le (by decide)).trans BitVec.extractLsb'_append_eq_right

@[simp] theorem imm8Field_commandWord : imm8Field (commandWord unit op imm8) = imm8 :=
  BitVec.extractLsb'_append_eq_right

@[simp] theorem commandWord_fields : commandWord (unitField w) (opField w) (imm8Field w) = w :=
  calc w.extractLsb' 12 4 ++ w.extractLsb' 8 4 ++ w.extractLsb' 0 8
    _ = w.extractLsb' 8 8 ++ w.extractLsb' 0 8 := congrArg (· ++ w.extractLsb' 0 8) (BitVec.extractLsb'_append_extractLsb'_eq_extractLsb' rfl)
    _ = w.extractLsb' 0 16 := BitVec.extractLsb'_append_extractLsb'_eq_extractLsb' rfl
    _ = w := BitVec.extractLsb'_eq_self

theorem eq_commandWord_iff :
    w = commandWord unit op imm8 ↔ unitField w = unit ∧ opField w = op ∧ imm8Field w = imm8 := by
  constructor
  · rintro rfl
    simp
  · rintro ⟨rfl, rfl, rfl⟩
    simp

/-! The two masks of the opcode map (R92): all 16 bits, and the bits of `unit` and `op`. -/

theorem and_wordMask : w &&& 0xFFFF#16 = w := BitVec.and_allOnes

theorem commandWord_and_opcodeMask : commandWord unit op imm8 &&& 0xFF00#16 = commandWord unit op 0#8 :=
  calc (unit ++ op ++ imm8) &&& (BitVec.allOnes 4 ++ BitVec.allOnes 4 ++ 0#8)
    _ = (unit &&& BitVec.allOnes 4) ++ (op &&& BitVec.allOnes 4) ++ (imm8 &&& 0#8) := by simp only [BitVec.and_append]
    _ = unit ++ op ++ 0#8 := by simp only [BitVec.and_allOnes, BitVec.and_zero]

theorem and_opcodeMask_eq_iff :
    w &&& 0xFF00#16 = commandWord unit op 0#8 ↔ unitField w = unit ∧ opField w = op := by
  have hmasked : w &&& 0xFF00#16 = commandWord (unitField w) (opField w) 0#8 := by
    rw [← commandWord_and_opcodeMask, commandWord_fields]
  simp [hmasked, eq_commandWord_iff]

/-! The matches of the map's five rows, read field by field (R92). -/

theorem and_opcodeMask_eq_pushWord : w &&& 0xFF00#16 = 0x1100#16 ↔ unitField w = 1#4 ∧ opField w = 1#4 :=
  and_opcodeMask_eq_iff w 1#4 1#4

theorem and_opcodeMask_eq_hotpWord : w &&& 0xFF00#16 = 0x2000#16 ↔ unitField w = 2#4 ∧ opField w = 0#4 :=
  and_opcodeMask_eq_iff w 2#4 0#4

theorem eq_startWord_iff : w = 0x1000#16 ↔ unitField w = 1#4 ∧ opField w = 0#4 ∧ imm8Field w = 0#8 :=
  eq_commandWord_iff w 1#4 0#4 0#8

theorem eq_endWord_iff : w = 0x1200#16 ↔ unitField w = 1#4 ∧ opField w = 2#4 ∧ imm8Field w = 0#8 :=
  eq_commandWord_iff w 1#4 2#4 0#8

theorem eq_totpWord_iff : w = 0x2100#16 ↔ unitField w = 2#4 ∧ opField w = 1#4 ∧ imm8Field w = 0#8 :=
  eq_commandWord_iff w 2#4 1#4 0#8

/-! What the decoder accepts (R100). -/

@[simp] theorem requireZeroImm_eq_ok_iff (i j : Instr) : requireZeroImm imm8 i = .ok j ↔ imm8 = 0#8 ∧ j = i := by
  unfold requireZeroImm
  split <;> simp [*, eq_comm (b := j)]

/-- A command word decodes to `i` exactly when `i` is the instruction of the row of R92 that the word's fields select. -/
theorem decodeCommand_eq_ok_iff (i : Instr) :
    decodeCommand w = .ok i ↔
      (unitField w = 1#4 ∧ opField w = 0#4 ∧ imm8Field w = 0#8 ∧ i = .b32Start) ∨
      (unitField w = 1#4 ∧ opField w = 1#4 ∧ i = .b32Push (imm8Field w)) ∨
      (unitField w = 1#4 ∧ opField w = 2#4 ∧ imm8Field w = 0#8 ∧ i = .b32End) ∨
      (unitField w = 2#4 ∧ opField w = 0#4 ∧ i = .otpHotp (imm8Field w)) ∨
      (unitField w = 2#4 ∧ opField w = 1#4 ∧ imm8Field w = 0#8 ∧ i = .otpTotp) := by
  unfold decodeCommand
  by_cases hb32 : unitField w = 1#4
  · rw [if_pos hb32]
    split_ifs with hstart hpush hend <;> simp [*, eq_comm (b := i)]
  · rw [if_neg hb32]
    split_ifs with hotp hhotp htotp <;> simp [*, eq_comm (b := i)]

/-- The decoder accepts exactly the words of the opcode map's rows. -/
theorem exists_decodeCommand_eq_ok_iff :
    (∃ i, decodeCommand w = .ok i) ↔
      w = 0x1000#16 ∨ w &&& 0xFF00#16 = 0x1100#16 ∨ w = 0x1200#16 ∨ w &&& 0xFF00#16 = 0x2000#16 ∨ w = 0x2100#16 := by
  rw [eq_startWord_iff, and_opcodeMask_eq_pushWord, eq_endWord_iff, and_opcodeMask_eq_hotpWord, eq_totpWord_iff]
  simp [decodeCommand_eq_ok_iff, exists_or]

end

/-- Settles O1: each row's match and mask fix the fields by which the decoder selects that row. -/
theorem commandWordsOfTheOpcodeMap : Obligations.CommandWordsOfTheOpcodeMap := by
  intro w
  have hoperand : w.setWidth 8 = imm8Field w := BitVec.setWidth_eq_extractLsb' (by decide)
  simp only [and_wordMask, eq_startWord_iff, and_opcodeMask_eq_pushWord, eq_endWord_iff, and_opcodeMask_eq_hotpWord,
    eq_totpWord_iff]
  simp [decodeCommand_eq_ok_iff, hoperand]

end Sys2Proof

namespace Sys2Proof.Machine

/-- A step whose next event is a word that the decoder rejects refuses, with the word and the decoder's reason (R101). -/
theorem step_reservedWord {s : State} {w : CommandWord} {ops : Option Operands} {rest : List Event} {why : ReservedReason}
    (hnext : s.pending = .issue w ops :: rest) (hreserved : decodeCommand w = .error why) :
    step s = .refused (.reservedWord w why) := by
  simp [step, fetch, hnext, hreserved]

/-- Settles O2: a word of no row is one that the decoder rejects, and a step that would accept it refuses with its reason. -/
theorem reservedWordsAreRefused : Obligations.ReservedWordsAreRefused := by
  intro w
  split_ifs with hrow
  · exact (exists_decodeCommand_eq_ok_iff w).mpr hrow
  · cases hw : decodeCommand w with
    | ok i => exact absurd ((exists_decodeCommand_eq_ok_iff w).mp ⟨i, hw⟩) hrow
    | error why => exact ⟨why, rfl, fun _ _ _ hnext => step_reservedWord hnext hw⟩

end Sys2Proof.Machine
end

section
/-! The B32 commands and the symbol rows (40_base32_decoder.md R120, R122 to R127). -/

namespace Sys2Proof.Machine

/-- In RUN the padding sentinel ends the decode; `OUT` stays as it is (R125). -/
theorem pushPad_run {s : State} (hp : s.b32.ph = .run) :
    pushPad s = .next (s.setB32 { s.b32.discard with ph := .done }) := whileRunning_run hp _

/-- In RUN an invalid symbol is the error entry (R126, R228). -/
theorem pushInvalid_run {s : State} (hp : s.b32.ph = .run) : pushInvalid s = .next (raiseDecodeError s) :=
  whileRunning_run hp _

/-- The end of the input does what a padding sentinel does (R125, R127). -/
theorem exec_b32End_eq_pushPad (s : State) : exec .b32End s = pushPad s := rfl

/-- Settles O7: START writes the whole register record of the B32 unit, so nothing of the old one is left. -/
theorem startOpensDecode : Obligations.StartOpensDecode := fun _ => rfl

/-- Settles O10: in RUN as a padding sentinel, in DONE and FAIL as any symbol after the stop. -/
theorem endClosesDecode : Obligations.EndClosesDecode := by
  intro s
  rw [exec_b32End_eq_pushPad]
  split_ifs with hp
  · exact pushPad_run hp
  · exact pushPad_stopped hp

/-- Settles O15: the row is the padding class. -/
theorem padStopsTheDecode : Obligations.PadStopsTheDecode :=
  fun s hp => (exec_row (i := .symPad) rfl s).trans (pushPad_run hp)

/-- Settles O16: the class of the row does not depend on the code it was pushed with. -/
theorem invalidSymbolRaisesDecodeError : Obligations.InvalidSymbolRaisesDecodeError :=
  fun c s hp => (exec_row (i := .symInvalid c) rfl s).trans (pushInvalid_run hp)

/-- With room, a row of value `v` in RUN completes with action S<FILL> of `v` (R122). -/
theorem exec_dataRow_room {i : Instr} {v : SymVal} (hrow : rowClass i = some (.data v)) {s : State}
    (hp : s.b32.ph = .run) (hroom : s.room) :
    exec i s = .next (s.setB32 (s.b32.merged (accumulate s.b32.fill s.b32.acc v))) :=
  (exec_row hrow s).trans (pushData_room hp hroom)

/-! The value of each data row, from the code it matches. -/

theorem rowClass_upperRows : ∀ r ∈ upperRows, rowClass r.2 = some (.data (BitVec.ofNat 5 (r.1.toNat - 0x41))) := by
  decide

theorem rowClass_lowerRows : ∀ r ∈ lowerRows, rowClass r.2 = some (.data (BitVec.ofNat 5 (r.1.toNat - 0x61))) := by
  decide

theorem rowClass_digitRows : ∀ r ∈ digitRows, rowClass r.2 = some (.data (BitVec.ofNat 5 (r.1.toNat - 0x32 + 26))) := by
  decide

/-- Settles O12: each uppercase row is the data row of its value. -/
theorem uppercaseRowsMergeTheirValue : Obligations.UppercaseRowsMergeTheirValue :=
  fun r hr _ hp hroom => exec_dataRow_room (rowClass_upperRows r hr) hp hroom

/-- Settles O13: each lowercase row is the data row of its value. -/
theorem lowercaseRowsMergeTheirValue : Obligations.LowercaseRowsMergeTheirValue :=
  fun r hr _ hp hroom => exec_dataRow_room (rowClass_lowerRows r hr) hp hroom

/-- Settles O14: each digit row is the data row of its value. -/
theorem digitRowsMergeTheirValue : Obligations.DigitRowsMergeTheirValue :=
  fun r hr _ hp hroom => exec_dataRow_room (rowClass_digitRows r hr) hp hroom

end Sys2Proof.Machine
end

section
/-! The accumulator actions as numbers and as placements of bits (40_base32_decoder.md R128 to R135). -/

namespace Sys2Proof.Machine

section
variable {w : Nat} (v : BitVec w)

/-! A value shifted within a wider register, as the pseudocode computes it. -/

theorem setWidth_shiftLeft_eq_ofNat (n k : Nat) : v.setWidth n <<< k = BitVec.ofNat n (v.toNat * 2 ^ k) := by
  apply BitVec.eq_of_toNat_eq
  simp [Nat.shiftLeft_eq]

theorem setWidth_ushiftRight_eq_ofNat {n : Nat} (hn : w ≤ n) (k : Nat) :
    v.setWidth n >>> k = BitVec.ofNat n (v.toNat / 2 ^ k) := by
  rw [← BitVec.setWidth_ushiftRight hn, ← BitVec.ofNat_toNat, BitVec.toNat_ushiftRight, Nat.shiftRight_eq_div_pow]

/-! The same values as bits at their places. -/

theorem setWidth_shiftLeft_eq_append (m k : Nat) : v.setWidth (m + k) <<< k = v.extractLsb' 0 m ++ 0#k := by
  ext j hj
  by_cases hk : j < k
  · simp [BitVec.getElem_append, hk]
  · simp [BitVec.getElem_append, hk]

theorem setWidth_shiftLeft_eq_setWidth (n k : Nat) : v.setWidth n <<< k = (v ++ 0#k).setWidth n := by
  simp [BitVec.setWidth_append_eq_shiftLeft_setWidth_or]

theorem setWidth_ushiftRight_eq_setWidth {k m n : Nat} (v : BitVec (k + m)) (hn : k + m ≤ n) :
    v.setWidth n >>> k = (v.extractLsb' k m).setWidth n := by
  rw [← BitVec.setWidth_ushiftRight hn]
  ext j hj
  by_cases hm : j < m
  · simp [hm]
  · simp [hm, BitVec.getLsbD_of_ge v (k + j) (by omega)]

end

section
variable {h m : Nat} {acc : BitVec (h + m)} (hempty : acc.toNat % 2 ^ m = 0)
include hempty

/-- The `m` empty bits of a register take a value of `m` bits; the `h` bits above them are kept. -/
theorem or_setWidth_eq_append (x : BitVec m) : acc ||| x.setWidth (h + m) = acc.extractLsb' m h ++ x := by
  have hlow : acc.extractLsb' 0 m = 0#m := BitVec.eq_of_toNat_eq (by simpa using hempty)
  have hacc : acc.extractLsb' m h ++ 0#m = acc := by
    rw [← hlow, BitVec.extractLsb'_append_extractLsb'_eq_extractLsb' (Nat.zero_add m).symm, BitVec.extractLsb'_eq_self]
  have hx : x.setWidth (h + m) = 0#h ++ x := by simp [BitVec.setWidth_eq_append]
  calc acc ||| x.setWidth (h + m)
    _ = (acc.extractLsb' m h ++ 0#m) ||| (0#h ++ x) := by rw [hacc, hx]
    _ = acc.extractLsb' m h ++ x := by simp

/-- A value of `k` bits more than are empty fills them with its high bits. -/
theorem or_ushiftRight_eq_append {k : Nat} (hk : k ≤ h) (v : BitVec (k + m)) :
    acc ||| (v.setWidth (h + m) >>> k) = acc.extractLsb' m h ++ v.extractLsb' k m := by
  rw [setWidth_ushiftRight_eq_setWidth v (Nat.add_le_add_right hk m), or_setWidth_eq_append hempty]

end

/-- A value narrower than the empty bits goes to the top of them; the `k` bits below it stay 0. -/
theorem or_shiftLeft_eq_append {h w k : Nat} {acc : BitVec (h + (w + k))} (hempty : acc.toNat % 2 ^ (w + k) = 0)
    (v : BitVec w) :
    acc ||| (v.setWidth (h + (w + k)) <<< k) = (acc.extractLsb' (w + k) h ++ v ++ 0#k).cast (Nat.add_assoc h w k) := by
  rw [setWidth_shiftLeft_eq_setWidth, or_setWidth_eq_append hempty, BitVec.append_assoc']

/-- Settles O18: the value goes to the top of the empty bits of `ACC`. -/
theorem actionsThatDoNotEmit : Obligations.ActionsThatDoNotEmit := by
  intro acc v
  have hv : v.extractLsb' 0 5 = v := BitVec.extractLsb'_eq_self
  refine
    ⟨⟨?_, ?emptyAcc⟩,
      ⟨?_, fun hempty => or_shiftLeft_eq_append (h := 1) (w := 5) (k := 2) hempty v⟩,
      ?_, fun hempty => or_shiftLeft_eq_append (h := 2) (w := 5) (k := 1) hempty v⟩
  case emptyAcc =>
    rintro rfl
    simpa [accumulate, hv] using setWidth_shiftLeft_eq_append v 5 3
  all_goals simp [accumulate, setWidth_shiftLeft_eq_ofNat]

/-- Settles O19: the emitted byte takes the high bits of the value, the new `ACC` those that are left. -/
theorem actionsThatEmit : Obligations.ActionsThatEmit := by
  intro acc v
  refine
    ⟨⟨?_, fun hempty => congrArg some (or_setWidth_eq_append (h := 3) hempty v)⟩,
      ⟨?_, setWidth_shiftLeft_eq_append v 1 7, fun hempty =>
        congrArg some (or_ushiftRight_eq_append (h := 4) (m := 4) (k := 1) hempty (by decide) v)⟩,
      ⟨?_, setWidth_shiftLeft_eq_append v 2 6, fun hempty =>
        congrArg some (or_ushiftRight_eq_append (h := 5) (m := 3) (k := 2) hempty (by decide) v)⟩,
      ⟨?_, setWidth_shiftLeft_eq_append v 3 5, fun hempty =>
        congrArg some (or_ushiftRight_eq_append (h := 6) (m := 2) (k := 3) hempty (by decide) v)⟩,
      ?_, setWidth_shiftLeft_eq_append v 4 4, fun hempty =>
        congrArg some (or_ushiftRight_eq_append (h := 7) (m := 1) (k := 4) hempty (by decide) v)⟩
  all_goals simp [accumulate, setWidth_shiftLeft_eq_ofNat, setWidth_ushiftRight_eq_ofNat]

end Sys2Proof.Machine
end

section
/-! The stages of the OTP unit, each from every state it is enabled in (41_hotp_engine.md R161 to R165). -/

namespace Sys2Proof.Machine

/-! The phase, and in DIGIT the comparison of `I` with `N`, selects the stage (R175). -/

section
variable {s : State}

theorem otpStage_enc (hp : s.otp.ph = .enc) : otpStage s = .next (s.setOtp (stageEnc s.otp)) := by
  simp [otpStage, hp]

theorem otpStage_hmac (hp : s.otp.ph = .hmac) : otpStage s = .next (s.setOtp (stageHmac s.otp)) := by
  simp [otpStage, hp]

theorem otpStage_trunc (hp : s.otp.ph = .trunc) : otpStage s = .next (s.setOtp (stageTrunc s.otp)) := by
  simp [otpStage, hp]

theorem otpStage_digit (hp : s.otp.ph = .digit) (hi : s.otp.i.val < s.otp.n.toNat) :
    otpStage s = .next (s.setOtp (stageDigit s.otp hi)) := by
  simp [otpStage, hp, hi]

theorem otpStage_render (hp : s.otp.ph = .digit) (hi : s.otp.i.val = s.otp.n.toNat) :
    otpStage s = .next (s.setOtp (stageRender s.otp)) := by
  simp [otpStage, hp, hi]

end

/-! The byte order of the counter and of the digest's window (20_memory.md R64, R65). -/

theorem bigEndian8_getElem_toNat (c : Word64) (i : Fin 8) :
    ((bigEndian8 c)[i.val]).toNat = c.toNat / 256 ^ (7 - i.val) % 256 := by
  have hbits : 2 ^ (56 - 8 * i.val) = 256 ^ (7 - i.val) := by
    rw [← Nat.mul_sub 8 7 i.val, pow_mul]
    rfl
  simp [bigEndian8, Nat.shiftRight_eq_div_pow, hbits]

theorem digestByte_eq_getElem_toNat (h : Digest) {i : Nat} (hi : i < 20) : digestByte h i = (h[i]).toNat := by
  simp [digestByte, hi]

theorem toNat_append_byte {w : Nat} (x : BitVec w) (b : Byte) : (x ++ b).toNat = x.toNat * 2 ^ 8 + b.toNat := by
  rw [BitVec.toNat_append, ← Nat.shiftLeft_add_eq_or_of_lt b.isLt, Nat.shiftLeft_eq]

theorem window_toNat (h : Digest) (off : BitVec 4) :
    (window h off).toNat =
      digestByte h off.toNat * 2 ^ 24 + digestByte h (off.toNat + 1) * 2 ^ 16 +
        digestByte h (off.toNat + 2) * 2 ^ 8 + digestByte h (off.toNat + 3) := by
  have hoff : off.toNat < 16 := off.isLt
  simp only [window, toNat_append_byte, digestByte_eq_getElem_toNat h (by omega : off.toNat < 20),
    digestByte_eq_getElem_toNat h (by omega : off.toNat + 1 < 20), digestByte_eq_getElem_toNat h (by omega : off.toNat + 2 < 20),
    digestByte_eq_getElem_toNat h (by omega : off.toNat + 3 < 20)]
  omega

/-- `OFF` is the low nibble of the last digest byte (R163). -/
theorem truncOffset_toNat (h : Digest) : (truncOffset h).toNat = (h[19]).toNat % 16 := BitVec.toNat_setWidth 4 h[19]

/-- The mask keeps the window's value modulo `2^31` (R163). -/
theorem truncValue_toNat (h : Digest) : (truncValue h).toNat = (window h (truncOffset h)).toNat % 2 ^ 31 :=
  BitVec.toNat_setWidth 31 (window h (truncOffset h))

/-! The registers that stage DIGIT writes (R164). -/

section
variable {u : Otp} (hi : u.i.val < u.n.toNat)

theorem stageDigit_q_toNat : (stageDigit u hi).q.toNat = u.q.toNat / 10 := BitVec.toNat_udiv

theorem stageDigit_dig_getElem (j : Fin 8) :
    ((stageDigit u hi).dig[j.val]).val = if j.val = u.i.val then u.q.toNat % 10 else (u.dig[j.val]).val := by
  have hcell : (stageDigit u hi).dig[j.val] =
      if u.i.val = j.val then ⟨u.q.toNat % 10, Nat.mod_lt _ (by decide)⟩ else u.dig[j.val] :=
    Vector.getElem_set (Nat.lt_of_lt_of_le hi u.n.toNat_le) j.isLt
  rw [hcell, apply_ite Fin.val]
  simp only [eq_comm]

end

/-! The cells of `CODE` (R165). -/

/-- A digit's character is its value above `0x30`; the byte does not overflow (10_state.md R38). -/
theorem digitChar_toNat (d : Fin 10) : (digitChar d).toNat = 0x30 + d.val := by
  have hd : d.val < 10 := d.isLt
  have hval : (BitVec.ofNat 8 d.val).toNat = d.val := Nat.mod_eq_of_lt (show d.val < 2 ^ 8 by omega)
  rw [digitChar, BitVec.toNat_add, hval]
  exact Nat.mod_eq_of_lt (show 0x30 + d.val < 2 ^ 8 by omega)

theorem rendered_getElem_of_lt {n : DigitLen} {dig : Vector (Fin 10) 8} {j k : Fin 8}
    (hjk : j.val + k.val + 1 = n.toNat) : (rendered n dig)[j.val] = digitChar dig[k.val] := by
  have hj : j.val < n.toNat := by omega
  have hk : n.toNat - 1 - j.val = k.val := by omega
  simp [rendered, hj, hk]

theorem rendered_getElem_of_ge {n : DigitLen} {dig : Vector (Fin 10) 8} {j : Fin 8} (hj : n.toNat ≤ j.val) :
    (rendered n dig)[j.val] = 0#8 := by
  simp [rendered, Nat.not_lt.mpr hj]

/-- Settles O28: `MSG` becomes the big-endian bytes of `CTR`. -/
theorem encWritesBigEndianCounter : Obligations.EncWritesBigEndianCounter :=
  fun s hp => ⟨bigEndian8 s.otp.ctr, bigEndian8_getElem_toNat s.otp.ctr, otpStage_enc hp⟩

/-- Settles O30: `OFF` and `P` are the stage's own, read as numbers. -/
theorem truncTakesMaskedWindow : Obligations.TruncTakesMaskedWindow := by
  intro s hp
  refine ⟨truncOffset s.otp.hash, truncValue s.otp.hash, truncOffset_toNat s.otp.hash, ?_, otpStage_trunc hp⟩
  rw [truncValue_toNat, window_toNat]

/-- Settles O31: one cell of `DIG` is set, and the quotient is within 31 bits. -/
theorem digitTakesModAndDivByTen : Obligations.DigitTakesModAndDivByTen :=
  fun _ hp hi => ⟨_, _, _, stageDigit_q_toNat hi, rfl, stageDigit_dig_getElem hi, otpStage_digit hp hi⟩

/-- Settles O32: cell `j` of `CODE` reads `DIG` from its end `N - 1`. -/
theorem renderReversesDigits : Obligations.RenderReversesDigits := by
  intro s hp hi
  refine ⟨rendered s.otp.n s.otp.dig, s.setOtp (stageRender s.otp), rfl, rfl, ?digits, ?zeros, otpStage_render hp hi⟩
  case digits =>
    intro j k hjk
    rw [rendered_getElem_of_lt hjk, digitChar_toNat]
  case zeros => exact fun _ hj => rendered_getElem_of_ge hj

/-- Settles O29: the request stands in phase HMAC, and the answer to it becomes `HASH`. -/
theorem hmacAnswersTheRequest : Obligations.HmacAnswersTheRequest :=
  fun _ hp => ⟨if_pos hp, otpStage_hmac hp⟩

end Sys2Proof.Machine
end

section
/-! The acceptance of TOTP (42_totp.md R200, R201). -/

namespace Sys2Proof.Machine

/-- From `t0` on neither operation of R201 wraps: the word quotient is the exact floor quotient. -/
theorem floorCounter_toNat {t0 now : Word64} (ivl : Word64) (ht : t0.toNat ≤ now.toNat) :
    ((now - t0) / ivl).toNat = (now.toNat - t0.toNat) / ivl.toNat := by
  rw [BitVec.toNat_udiv, BitVec.toNat_sub_of_le (BitVec.le_def.mpr ht)]

/-- Once both tests of R200 pass, an idle unit opens a six-digit call with the derived counter. -/
theorem exec_otpTotp_valid {s : State} (hidle : s.otp.ph.busy = false) (hivl : s.bundle.ivl.toNat ≠ 0)
    (ht : s.bundle.t0.toNat ≤ s.bundle.now.toNat) :
    exec .otpTotp s = openCall s.bundle.key ((s.bundle.now - s.bundle.t0) / s.bundle.ivl) .six s := by
  have hvalid : ¬ (s.bundle.ivl = 0#64 ∨ s.bundle.now < s.bundle.t0) := by
    rintro (hzero | hearly)
    · exact hivl (congrArg BitVec.toNat hzero)
    · exact Nat.not_lt.mpr ht (BitVec.lt_def.mp hearly)
  calc exec .otpTotp s = execOtpTotp s := rfl
    _ = _ := whenIdle_idle hidle _
    _ = _ := if_neg hvalid

/-- Settles O23: the tests of R200 pass, the key fits, and `CTR` is the word quotient, which is exact. -/
theorem totpAcceptsWithFloorCounter : Obligations.TotpAcceptsWithFloorCounter := by
  intro s hidle hivl ht hkey
  refine ⟨(s.bundle.now - s.bundle.t0) / s.bundle.ivl, floorCounter_toNat s.bundle.ivl ht, ?_⟩
  rw [exec_otpTotp_valid hidle hivl ht, openCall_fits hkey]
  rfl

end Sys2Proof.Machine
end

section
/-! Both formats: the decoder and the encoder are inverse on well-formed instructions (30_encoding.md R90 to R101, R106). -/

namespace Sys2Proof

/-! ## Format S (R93, R97, R106) -/

/-- The codes without a row of their own are the 197 codes of class INVALID (R97). -/
theorem lookup_symbolRows_eq_none_iff : ∀ c : Byte, symbolRows.lookup c = none ↔ isInvalidCode c = true := by
  decide

/-- Each row is the meaning of its own code, so no two rows share one. -/
theorem decodeSymbol_of_mem_symbolRows : ∀ r ∈ symbolRows, decodeSymbol r.1 = r.2 := by
  decide

theorem wf_and_encode_of_mem_symbolRows : ∀ r ∈ symbolRows, r.2.wf = true ∧ encode r.2 = .symbol r.1 := by
  decide

theorem decodeSymbol_of_isInvalidCode {c : Byte} (hc : isInvalidCode c = true) : decodeSymbol c = .symInvalid c := by
  simp [decodeSymbol, (lookup_symbolRows_eq_none_iff c).mpr hc]

/-- A code has a row of its own or is a code of `SYM.INVALID`. -/
theorem mem_symbolRows_or_isInvalidCode (c : Byte) : (c, decodeSymbol c) ∈ symbolRows ∨ isInvalidCode c = true := by
  cases hrow : symbolRows.lookup c with
  | none => exact .inr ((lookup_symbolRows_eq_none_iff c).mp hrow)
  | some i =>
    have hi : decodeSymbol c = i := by simp [decodeSymbol, hrow]
    obtain ⟨pre, post, hsplit, -⟩ := List.lookup_eq_some_iff.mp hrow
    exact .inl (by simp [hi, hsplit])

/-- What a symbol code decodes to is well formed and stands for that code. -/
theorem wf_and_encode_decodeSymbol (c : Byte) : (decodeSymbol c).wf = true ∧ encode (decodeSymbol c) = .symbol c := by
  rcases mem_symbolRows_or_isInvalidCode c with hrow | hinvalid
  · exact wf_and_encode_of_mem_symbolRows _ hrow
  · rw [decodeSymbol_of_isInvalidCode hinvalid]
    exact ⟨hinvalid, rfl⟩

/-! ## Both formats -/

/-- What a command word decodes to is well formed and stands for that word. -/
theorem wf_and_encode_of_decodeCommand {w : CommandWord} {i : Instr} (h : decodeCommand w = .ok i) :
    i.wf = true ∧ encode i = .command w := by
  have hword := eq_commandWord_iff w
  rcases (decodeCommand_eq_ok_iff w i).mp h with
    ⟨hunit, hop, himm, rfl⟩ | ⟨hunit, hop, rfl⟩ | ⟨hunit, hop, himm, rfl⟩ | ⟨hunit, hop, rfl⟩ | ⟨hunit, hop, himm, rfl⟩
  · exact ⟨rfl, congrArg _ ((hword _ _ _).mpr ⟨hunit, hop, himm⟩).symm⟩
  · exact ⟨rfl, congrArg _ ((hword _ _ _).mpr ⟨hunit, hop, rfl⟩).symm⟩
  · exact ⟨rfl, congrArg _ ((hword _ _ _).mpr ⟨hunit, hop, himm⟩).symm⟩
  · exact ⟨rfl, congrArg _ ((hword _ _ _).mpr ⟨hunit, hop, rfl⟩).symm⟩
  · exact ⟨rfl, congrArg _ ((hword _ _ _).mpr ⟨hunit, hop, himm⟩).symm⟩

/-- Settles O3: a command word selects its row by its fields, and a symbol code by the table. -/
theorem encodeDecodeRoundTrip : Obligations.EncodeDecodeRoundTrip := by
  intro i hwf
  cases i
  case b32Push c => simp [encode, decodeWord, decodeCommand_eq_ok_iff]
  case otpHotp n => simp [encode, decodeWord, decodeCommand_eq_ok_iff]
  case symInvalid c => exact congrArg Except.ok (decodeSymbol_of_isInvalidCode hwf)
  all_goals rfl

/-- Settles O4: the word's fields, or the symbol's row, give the word back. -/
theorem decodedWordEncodesBack : Obligations.DecodedWordEncodesBack := by
  intro e i h
  cases e with
  | command w => exact wf_and_encode_of_decodeCommand h
  | symbol c =>
    obtain rfl : decodeSymbol c = i := Except.ok.inj h
    exact wf_and_encode_decodeSymbol c

end Sys2Proof

namespace Sys2Proof.Machine

/-! ## Symbol classes (R94, R97) -/

theorem classify_eq_pad_iff : ∀ c : Byte, classify c = .pad ↔ c = 0x3D#8 := by decide

theorem classify_eq_invalid_iff : ∀ c : Byte, classify c = .invalid ↔ isInvalidCode c = true := by decide

/-- The three ranges of the data codes are what the other two classes leave (R97). -/
theorem dataCode_iff : ∀ c : Byte,
    (0x41#8 ≤ c ∧ c ≤ 0x5A#8) ∨ (0x61#8 ≤ c ∧ c ≤ 0x7A#8) ∨ (0x32#8 ≤ c ∧ c ≤ 0x37#8) ↔
      c ≠ 0x3D#8 ∧ isInvalidCode c = false := by decide

theorem exists_classify_eq_data_iff (c : Byte) :
    (∃ v, classify c = .data v) ↔ classify c ≠ .pad ∧ classify c ≠ .invalid := by
  cases classify c <;> simp

/-- Of the ASCII codes 69 are invalid, 128 less the 58 data codes and `=`; above them every code is (R97). -/
theorem countP_isInvalidCode : ((List.range 256).countP fun k => isInvalidCode (BitVec.ofNat 8 k)) = 197 := by
  have hascii : ((List.range 128).countP fun k => isInvalidCode (BitVec.ofNat 8 k)) = 69 := by decide
  have hhigh : ((List.range 128).countP fun k => isInvalidCode (BitVec.ofNat 8 (128 + k))) = 128 := by decide
  rw [show 256 = 128 + 128 from rfl, List.range_add, List.countP_append, List.countP_map]
  exact congrArg₂ (· + ·) hascii hhigh

/-- Settles O5: the fold is its definition; each class is its ranges of codes. -/
theorem symbolClassesByCode : Obligations.SymbolClassesByCode := by
  refine ⟨fun _ => rfl, classify_eq_pad_iff, classify_eq_invalid_iff, fun c => ?data, countP_isInvalidCode⟩
  rw [exists_classify_eq_data_iff, dataCode_iff, Ne, classify_eq_pad_iff, Ne, classify_eq_invalid_iff, Bool.not_eq_true]

/-- The class of a code is that of the row it decodes to (R97, R106). -/
theorem rowClass_decodeSymbol : ∀ c : Byte, rowClass (decodeSymbol c) = some (classify c) := by decide

/-! ## Numeric codes (R22, R28, R221) -/

/-- Settles O6: each code is the literal of its clause. -/
theorem phaseAndErrorCodes : Obligations.PhaseAndErrorCodes :=
  ⟨rfl, rfl, rfl, rfl, rfl, rfl, rfl, rfl, rfl, rfl, rfl, rfl, rfl, rfl, rfl, rfl, rfl⟩

end Sys2Proof.Machine
end

section
/-! The B32 instructions as symbol classes, and the one formula for the accumulator (40_base32_decoder.md R121, R136, R137,
R144). -/

namespace Sys2Proof.Machine

/-! ## The class of a symbol, in R121's order of tests -/

section
variable {c : Byte}

theorem classify_of_pad (hpad : upcase c = padCode) : classify c = .pad := if_pos hpad

theorem classify_of_val {v : SymVal} (hpad : upcase c ≠ padCode) (hv : val? (upcase c) = some v) :
    classify c = .data v := by
  simp [classify, hpad, hv]

theorem classify_of_no_val (hpad : upcase c ≠ padCode) (hv : val? (upcase c) = none) : classify c = .invalid := by
  simp [classify, hpad, hv]

theorem classify_eq_data_iff {v : SymVal} : classify c = .data v ↔ upcase c ≠ padCode ∧ val? (upcase c) = some v := by
  unfold classify
  split_ifs with hpad
  · simp [hpad]
  · cases val? (upcase c) <;> simp [hpad]

theorem upcase_eq_padCode_iff : upcase c = padCode ↔ classify c = .pad := by
  refine ⟨classify_of_pad, fun hc => ?_⟩
  by_contra hpad
  cases hv : val? (upcase c) with
  | none => cases hc.symm.trans (classify_of_no_val hpad hv)
  | some v => cases hc.symm.trans (classify_of_val hpad hv)

end

/-! ## Every B32 instruction but START is a symbol's class -/

/-- A push does what the class of its symbol does: outside RUN, where R121 classifies nothing, no class does anything. -/
theorem exec_b32Push (c : Byte) (s : State) : exec (.b32Push c) s = pushClass (classify c) s := by
  by_cases hp : s.b32.ph = .run
  · calc exec (.b32Push c) s = execB32Push c s := rfl
      _ = _ := whileRunning_run hp _
      _ = pushClass (classify c) s := by cases classify c <;> rfl
  · rw [pushClass_stopped hp]
    exact whileRunning_stopped hp _

theorem eq_b32Start_or_exec_eq_pushClass {i : Instr} (hi : forOtp i = false) :
    i = .b32Start ∨ ∃ k, ∀ s, exec i s = pushClass k s := by
  have hotp : ¬(i = .otpTotp ∨ ∃ n, i = .otpHotp n) := by rw [← forOtp_iff, hi]; decide
  cases i
  case b32Start => exact .inl rfl
  case b32Push c => exact .inr ⟨classify c, exec_b32Push c⟩
  case b32End => exact .inr ⟨.pad, exec_b32End_eq_pushPad⟩
  case otpHotp n => exact absurd (.inr ⟨n, rfl⟩) hotp
  case otpTotp => exact absurd (.inl rfl) hotp
  all_goals exact .inr ⟨_, exec_row rfl⟩

/-- Settles O9: the push and the row are both the class of the symbol. -/
theorem pushRunsTheRowOfItsSymbol : Obligations.PushRunsTheRowOfItsSymbol :=
  fun c s => (exec_b32Push c s).trans (exec_row (rowClass_decodeSymbol c) s).symm

/-- Settles O11: outside RUN no class does anything. -/
theorem stoppedDecodeIgnoresSymbols : Obligations.StoppedDecodeIgnoresSymbols := by
  intro i s hi hstart hp
  obtain rfl | ⟨k, hk⟩ := eq_b32Start_or_exec_eq_pushClass hi
  · exact absurd rfl hstart
  · rw [hk, pushClass_stopped hp]

/-! ## Room for what a data symbol emits (R137) -/

theorem pushData_noRoom {v : SymVal} {s : State} (hp : s.b32.ph = .run) (hroom : ¬ s.room) :
    pushData v s = .refused .outCapacity := by
  obtain ⟨hfill, hcap⟩ := not_or.mp hroom
  have hemits : (accumulate s.b32.fill s.b32.acc v).emitted ≠ none := by rwa [Ne, accumulate_emitted_none]
  obtain ⟨b, hb⟩ := Option.ne_none_iff_exists'.mp hemits
  simp only [pushData, whileRunning_run hp]
  exact if_neg (by simpa [B32.merged, hb] using hcap)

/-- A symbol completes in every state but a data symbol without room. -/
theorem pushClass_completes {s : State} (h : s.b32.ph ≠ .run ∨ s.room) (k : SymClass) : ∃ t, pushClass k s = .next t := by
  by_cases hp : s.b32.ph = .run
  · have hroom : s.room := h.resolve_left (not_not_intro hp)
    cases k with
    | data v => exact ⟨_, pushData_room hp hroom⟩
    | pad => exact ⟨_, pushPad_run hp⟩
    | invalid => exact ⟨_, pushInvalid_run hp⟩
  · exact ⟨s, pushClass_stopped hp k⟩

theorem rowClass_dataRows : ∀ r ∈ upperRows ++ lowerRows ++ digitRows, ∃ v, rowClass r.2 = some (.data v) := by
  intro r hr
  rcases List.mem_append.mp hr with hletter | hdigit
  · rcases List.mem_append.mp hletter with hupper | hlower
    · exact ⟨_, rowClass_upperRows r hupper⟩
    · exact ⟨_, rowClass_lowerRows r hlower⟩
  · exact ⟨_, rowClass_digitRows r hdigit⟩

/-- Settles O17: a data row is a data symbol, which refuses without room. -/
theorem fullOutputRefusesDataSymbols : Obligations.FullOutputRefusesDataSymbols := by
  intro r hr s hp hroom
  obtain ⟨v, hv⟩ := rowClass_dataRows r hr
  exact (exec_row hv s).trans (pushData_noRoom hp hroom)

/-- Settles O43: the row and the push are the same data symbol, which outside RUN does nothing and in RUN runs an action. -/
theorem dataSymbolFrame : Obligations.DataSymbolFrame := by
  intro r hr i hi s t h
  obtain ⟨v, hv⟩ := rowClass_dataRows r hr
  have hdecode : decodeSymbol r.1 = r.2 := decodeSymbol_of_mem_symbolRows r (List.mem_append_left _ hr)
  have hexec : exec i s = pushData v s := by
    rcases hi with rfl | rfl
    · exact exec_row hv s
    · rw [pushRunsTheRowOfItsSymbol, hdecode]
      exact exec_row hv s
  rcases pushData_cases (hexec.symm.trans h) with ⟨-, rfl⟩ | ⟨-, rfl, -⟩
  · exact ⟨rfl, rfl, none, (List.append_nil _).symm⟩
  · exact ⟨rfl, rfl, _, rfl⟩

/-! ## One formula for the eight actions (R136) -/

/-- The eight pseudocode actions, as numbers, are the formula at their `FILL`. -/
theorem accumulate_eq_mergeFormula (f : Fin 8) (acc : Byte) (v : SymVal) : accumulate f acc v = mergeFormula f acc v := by
  have hor : ∀ n : Nat, BitVec.ofNat 8 (acc.toNat ||| n) = acc ||| BitVec.ofNat 8 n := fun n => by
    rw [BitVec.ofNat_or, BitVec.ofNat_toNat, BitVec.setWidth_eq]
  have hover : BitVec.ofNat 8 (v.toNat * 256) = 0#8 := BitVec.eq_of_toNat_eq (Nat.mul_mod_left v.toNat 256)
  obtain ⟨⟨hS0, -⟩, ⟨hS1, -⟩, hS2, -⟩ := actionsThatDoNotEmit acc v
  obtain ⟨⟨hS3, -⟩, ⟨hS4, -⟩, ⟨hS5, -⟩, ⟨hS6, -⟩, hS7, -⟩ := actionsThatEmit acc v
  fin_cases f
  all_goals simp [mergeFormula, hor, hover, hS0, hS1, hS2, hS3, hS4, hS5, hS6, hS7]

/-- Settles O20: the formula, and the count and emission of every action. -/
theorem oneFormulaForAllActions : Obligations.OneFormulaForAllActions := by
  intro f acc v
  refine ⟨accumulate_eq_mergeFormula f acc v, by rw [accumulate_fill]; rfl, ?_⟩
  rw [← Option.ne_none_iff_isSome, Ne, accumulate_emitted_none, Nat.not_lt]

/-- Settles O8: the class of the symbol, and for a data symbol the formula. -/
theorem pushCompletesByClass : Obligations.PushCompletesByClass := by
  intro c s h
  rw [exec_b32Push]
  by_cases hp : s.b32.ph = .run
  · rw [if_neg (not_not_intro hp)]
    by_cases hpad : upcase c = 0x3D#8
    · rw [if_pos hpad, classify_of_pad hpad]
      exact pushPad_run hp
    · rw [if_neg hpad]
      cases hv : val? (upcase c) with
      | none => rw [classify_of_no_val hpad hv]; exact pushInvalid_run hp
      | some v =>
        have hroom : s.room := by simpa [hp, hv] using h
        have hmerge := pushData_room (v := v) hp hroom
        rw [accumulate_eq_mergeFormula] at hmerge
        rw [classify_of_val hpad hv]
        exact hmerge
  · rw [if_pos hp, pushClass_stopped hp]

end Sys2Proof.Machine
end

section
/-! The OTP commands: what each validation decides, and what an accepted call latches (41_hotp_engine.md R160, 42_totp.md
R200 to R202, 70_reset_and_hazards.md R266). -/

namespace Sys2Proof.Machine

/-! ## Validation (R98, R172, R206) -/

theorem digitLen?_eq_some_iff (n : BitVec 8) (d : DigitLen) : digitLen? n = some d ↔ n.toNat = d.toNat := by
  revert n
  cases d <;> decide

theorem digitLen?_eq_none_iff : ∀ n : BitVec 8, digitLen? n = none ↔ ¬(n.toNat = 6 ∨ n.toNat = 7 ∨ n.toNat = 8) := by
  decide

section
variable {s : State}

theorem openCall_exceeds {key : List Byte} (ctr : Word64) (d : DigitLen)
    (hkey : withinCap s.params.keyCap key.length = false) : openCall key ctr d s = .refused .keyCapacity := by
  simp [openCall, hkey]

/-- Opening a call neither reads nor writes the bundle; its operands are arguments. -/
theorem openCall_setBundle_restored (key : List Byte) (ctr : Word64) (d : DigitLen) (b : Bundle) :
    mapNext (fun t => t.setBundle s.bundle) (openCall key ctr d (s.setBundle b)) = openCall key ctr d s := by
  unfold openCall
  rw [State.setBundle_params]
  split <;> rfl

theorem exec_otp_busy {i : Instr} (hi : forOtp i = true) (hbusy : s.otp.ph.busy = true) : exec i s = .refused .otpBusy := by
  obtain rfl | ⟨n, rfl⟩ := (forOtp_iff i).mp hi
  · exact whenIdle_busy hbusy _
  · exact whenIdle_busy hbusy _

variable (hidle : s.otp.ph.busy = false)
include hidle

theorem exec_otpHotp_valid {n : BitVec 8} {d : DigitLen} (hn : digitLen? n = some d) :
    exec (.otpHotp n) s = openCall s.bundle.key s.bundle.ctr d s :=
  calc exec (.otpHotp n) s = execOtpHotp n s := rfl
    _ = _ := whenIdle_idle hidle _
    _ = _ := by rw [hn]

theorem exec_otpHotp_invalid {n : BitVec 8} (hn : digitLen? n = none) :
    exec (.otpHotp n) s = .next (raiseInvalidParameter s) :=
  calc exec (.otpHotp n) s = execOtpHotp n s := rfl
    _ = _ := whenIdle_idle hidle _
    _ = _ := by rw [hn]

theorem exec_otpTotp_invalid (h : s.bundle.ivl.toNat = 0 ∨ s.bundle.now.toNat < s.bundle.t0.toNat) :
    exec .otpTotp s = .next (raiseInvalidParameter s) := by
  have htests : s.bundle.ivl = 0#64 ∨ s.bundle.now < s.bundle.t0 := h.imp_left BitVec.eq_of_toNat_eq
  calc exec .otpTotp s = execOtpTotp s := rfl
    _ = _ := whenIdle_idle hidle _
    _ = _ := if_pos htests

end

/-- An OTP command that answers a next state found the unit idle, and either fails its validation or opens a call. -/
theorem exec_otp_cases {i : Instr} {s t : State} (hi : forOtp i = true) (h : exec i s = .next t) :
    s.otp.ph.busy = false ∧ (t = raiseInvalidParameter s ∨ ∃ key ctr d, openCall key ctr d s = .next t) := by
  cases hbusy : s.otp.ph.busy with
  | true => rw [exec_otp_busy hi hbusy] at h; cases h
  | false =>
    refine ⟨rfl, ?_⟩
    obtain rfl | ⟨n, rfl⟩ := (forOtp_iff i).mp hi
    · by_cases htests : s.bundle.ivl.toNat = 0 ∨ s.bundle.now.toNat < s.bundle.t0.toNat
      · rw [exec_otpTotp_invalid hbusy htests] at h
        cases h
        exact .inl rfl
      · obtain ⟨hivl, hnow⟩ := not_or.mp htests
        exact .inr ⟨_, _, _, (exec_otpTotp_valid hbusy hivl (Nat.not_lt.mp hnow)).symm.trans h⟩
    · cases hn : digitLen? n with
      | none =>
        rw [exec_otpHotp_invalid hbusy hn] at h
        cases h
        exact .inl rfl
      | some d => exact .inr ⟨_, _, _, (exec_otpHotp_valid hbusy hn).symm.trans h⟩

/-! ## The commands in IDLE, DONE and FAIL -/

/-- Settles O21: a legal length opens the call with the operands at the port. -/
theorem hotpAcceptsLegalLength : Obligations.HotpAcceptsLegalLength := by
  intro n d s hn hidle hkey
  rw [exec_otpHotp_valid hidle ((digitLen?_eq_some_iff n d).mpr hn), openCall_fits hkey]
  rfl

/-- Settles O22: any other length is the error entry. -/
theorem hotpRejectsOtherLengths : Obligations.HotpRejectsOtherLengths := by
  intro n s hsix hseven height hidle
  have hn : digitLen? n = none := (digitLen?_eq_none_iff n).mpr (by simp [hsix, hseven, height])
  exact exec_otpHotp_invalid hidle hn

/-- Settles O24: either test is the error entry. -/
theorem totpRejectsZeroIntervalAndEarlyTime : Obligations.TotpRejectsZeroIntervalAndEarlyTime :=
  fun _ hidle h => exec_otpTotp_invalid hidle h

/-- Settles O25: both commands open the same call; that the bundle of HOTP holds the derived counter is undone after it. -/
theorem totpDelegatesToHotp : Obligations.TotpDelegatesToHotp := by
  intro s hidle hivl ht ctr hctr
  have hquotient : (s.bundle.now - s.bundle.t0) / s.bundle.ivl = ctr :=
    BitVec.eq_of_toNat_eq ((floorCounter_toNat s.bundle.ivl ht).trans hctr.symm)
  rw [exec_otpTotp_valid hidle hivl ht, hquotient,
    exec_otpHotp_valid (s := s.setBundle { s.bundle with ctr := ctr }) hidle (d := .six) rfl]
  exact (openCall_setBundle_restored s.bundle.key ctr .six _).symm

/-- Settles O26: an OTP command meets the busy unit; a B32 instruction is START or a symbol, which has room. -/
theorem busyOtpUnitRefusesOtpCommandsOnly : Obligations.BusyOtpUnitRefusesOtpCommandsOnly := by
  intro s hbusy
  refine ⟨fun n => exec_otp_busy ((forOtp_iff _).mpr (.inr ⟨n, rfl⟩)) hbusy, exec_otp_busy rfl hbusy, fun i hi hroom => ?_⟩
  obtain rfl | ⟨k, hk⟩ := eq_b32Start_or_exec_eq_pushClass hi
  · exact ⟨_, rfl⟩
  · rw [hk]
    exact pushClass_completes hroom k

/-- Settles O27: both commands, their validation passed, come to the same acceptance. -/
theorem keyBeyondCapacityIsRefused : Obligations.KeyBeyondCapacityIsRefused := by
  intro s hidle hkey
  constructor
  · intro n d hn
    rw [exec_otpHotp_valid hidle hn, openCall_exceeds _ _ hkey]
  · intro hivl ht
    rw [exec_otpTotp_valid hidle hivl ht, openCall_exceeds _ _ hkey]

end Sys2Proof.Machine
end

section
/-! What an instruction, a stage and a step can do to each unit, and what they leave unchanged (10_state.md R43, R44,
20_memory.md R70). -/

namespace Sys2Proof.Machine

/-! ## The moves of a unit -/

/-- Everything an instruction or a reset can do to the B32 unit (40_base32_decoder.md R120 to R127). -/
inductive B32.Move (p : Config.Params) (u : B32) : B32 → Prop where
  | rest : B32.Move p u u
  | opened : B32.Move p u B32.opened
  | merged (v : SymVal) (hrun : u.ph = .run)
      (hcap : (accumulate u.fill u.acc v).emitted = none ∨
        withinCap p.b32OutCap (u.merged (accumulate u.fill u.acc v)).out.length = true) :
      B32.Move p u (u.merged (accumulate u.fill u.acc v))
  | stopped (hrun : u.ph = .run) : B32.Move p u { u.discard with ph := .done }
  | failed (hrun : u.ph = .run) :
      B32.Move p u { u with ph := .fail, ecode := .decodeError, out := [], acc := 0#8, fill := 0 }

/-- Everything a command, a stage or a reset can do to the OTP unit (41_hotp_engine.md R160 to R165). -/
inductive Otp.Move (p : Config.Params) (u : Otp) : Otp → Prop where
  | rest : Otp.Move p u u
  | rejected (hidle : u.ph.busy = false) :
      Otp.Move p u { u with ph := .fail, ecode := .invalidParameter, clen := none, code := Vector.replicate 8 0#8 }
  | opened (key : List Byte) (ctr : Word64) (d : DigitLen) (hidle : u.ph.busy = false)
      (hkey : withinCap p.keyCap key.length = true) :
      Otp.Move p u { u.withdrawn with key := key, ctr := ctr, n := d, ph := .enc }
  | enc (hp : u.ph = .enc) : Otp.Move p u (stageEnc u)
  | hmac (hp : u.ph = .hmac) : Otp.Move p u (stageHmac u)
  | trunc (hp : u.ph = .trunc) : Otp.Move p u (stageTrunc u)
  | digit (hp : u.ph = .digit) (hi : u.i.val < u.n.toNat) : Otp.Move p u (stageDigit u hi)
  | render (hp : u.ph = .digit) (hi : u.i.val = u.n.toNat) : Otp.Move p u (stageRender u)
  | reset : Otp.Move p u Otp.reset

/-- Both units move, and the parameters stay. -/
structure UnitsMove (s t : State) : Prop where
  b32 : B32.Move s.params s.b32 t.b32
  otp : Otp.Move s.params s.otp t.otp
  params : t.params = s.params

section
variable {i : Instr} {s t : State}

theorem pushClass_move {k : SymClass} (h : pushClass k s = .next t) :
    ∃ u, B32.Move s.params s.b32 u ∧ t = s.setB32 u := by
  cases k with
  | data v =>
    rcases pushData_cases h with ⟨-, rfl⟩ | ⟨hrun, rfl, hcap⟩
    · exact ⟨_, .rest, rfl⟩
    · exact ⟨_, .merged v hrun hcap, rfl⟩
  | pad =>
    rcases pushPad_cases h with ⟨-, rfl⟩ | ⟨hrun, rfl⟩
    · exact ⟨_, .rest, rfl⟩
    · exact ⟨_, .stopped hrun, rfl⟩
  | invalid =>
    rcases pushInvalid_cases h with ⟨-, rfl⟩ | ⟨hrun, rfl⟩
    · exact ⟨_, .rest, rfl⟩
    · exact ⟨_, .failed hrun, rfl⟩

theorem exec_b32_move (hi : forOtp i = false) (h : exec i s = .next t) :
    ∃ u, B32.Move s.params s.b32 u ∧ t = s.setB32 u := by
  obtain rfl | ⟨k, hk⟩ := eq_b32Start_or_exec_eq_pushClass hi
  · cases h
    exact ⟨_, .opened, rfl⟩
  · exact pushClass_move ((hk s).symm.trans h)

theorem exec_otp_move (hi : forOtp i = true) (h : exec i s = .next t) :
    ∃ u, Otp.Move s.params s.otp u ∧ t = s.setOtp u := by
  obtain ⟨hidle, rfl | ⟨key, ctr, d, hopen⟩⟩ := exec_otp_cases hi h
  · exact ⟨_, .rejected hidle, rfl⟩
  · obtain ⟨hkey, rfl⟩ := openCall_cases hopen
    exact ⟨_, .opened key ctr d hidle hkey, rfl⟩

theorem otpStage_move (h : otpStage s = .next t) : ∃ u, Otp.Move s.params s.otp u ∧ t = s.setOtp u := by
  rcases otpStage_cases h with ⟨hp, rfl⟩ | ⟨hp, rfl⟩ | ⟨hp, rfl⟩ | ⟨hp, hi, rfl⟩ | ⟨hp, hi, rfl⟩ | ⟨-, rfl⟩
  · exact ⟨_, .enc hp, rfl⟩
  · exact ⟨_, .hmac hp, rfl⟩
  · exact ⟨_, .trunc hp, rfl⟩
  · exact ⟨_, .digit hp hi, rfl⟩
  · exact ⟨_, .render hp hi, rfl⟩
  · exact ⟨_, .rest, rfl⟩

/-- One unit moves and the other rests, whichever unit the instruction is for. -/
theorem exec_move (h : exec i s = .next t) :
    UnitsMove s t := by
  cases hi : forOtp i with
  | false => obtain ⟨u, hmove, rfl⟩ := exec_b32_move hi h; exact ⟨hmove, .rest, rfl⟩
  | true => obtain ⟨u, hmove, rfl⟩ := exec_otp_move hi h; exact ⟨.rest, hmove, rfl⟩

theorem otpStage_units_move (h : otpStage s = .next t) :
    UnitsMove s t := by
  obtain ⟨u, hmove, rfl⟩ := otpStage_move h
  exact ⟨.rest, hmove, rfl⟩

theorem waitUntil_move {ready : Bool} {rest : List Event} (h : waitUntil ready rest s = .next t) :
    UnitsMove s t := by
  cases ready with
  | true => cases h; exact ⟨.rest, .rest, rfl⟩
  | false => exact otpStage_units_move h

/-- Whatever the next event is, a step that answers a next state makes one move of each unit. -/
theorem step_move (h : step s = .next t) :
    UnitsMove s t := by
  rcases step_cases s with ⟨-, hs⟩ | ⟨w, ops, rest, i, -, -, hs⟩ | ⟨w, ops, rest, why, -, -, hs⟩ | ⟨rest, -, hs⟩ |
    ⟨rest, -, hs⟩ | ⟨rest, -, hs⟩ | ⟨q, rest, -, hs⟩ | ⟨rest, -, hs⟩
  all_goals rw [hs] at h
  · exact otpStage_units_move h
  · obtain ⟨b, hb, -⟩ := presentOperands_eq ops (s.setPending rest)
    rw [hb] at h
    obtain ⟨hb32, hotp, hparams⟩ := exec_move h
    exact ⟨hb32, hotp, hparams⟩
  · cases h
  · exact waitUntil_move h
  · exact waitUntil_move h
  · obtain ⟨hb32, hotp, hparams⟩ := otpStage_units_move h
    exact ⟨hb32, hotp, hparams⟩
  · cases h
  · cases h
    exact ⟨.opened, .reset, rfl⟩

end

/-! ## Frames -/

/-- Settles O42: the unit that the instruction is not for, and everything outside both units, is not in the move. -/
theorem commandFrame : Obligations.CommandFrame := by
  intro i s t h
  cases hi : forOtp i with
  | false =>
    obtain ⟨u, -, rfl⟩ := exec_b32_move hi h
    exact ⟨rfl, rfl, rfl, fun _ => rfl, nofun⟩
  | true =>
    obtain ⟨-, rfl | ⟨key, ctr, d, hopen⟩⟩ := exec_otp_cases hi h
    · exact ⟨rfl, rfl, rfl, nofun, fun _ => ⟨rfl, rfl, rfl, rfl, rfl, rfl, rfl, rfl⟩⟩
    · obtain ⟨-, rfl⟩ := openCall_cases hopen
      exact ⟨rfl, rfl, rfl, nofun, fun _ => ⟨rfl, rfl, rfl, rfl, rfl, rfl, rfl, rfl⟩⟩

/-- Settles O33: of the stages only RENDER writes `CODE` and `CLEN`, and it enters DONE. -/
theorem stagesShowResultsOnlyAtRender : Obligations.StagesShowResultsOnlyAtRender := by
  intro s t h
  rcases otpStage_cases h with ⟨-, rfl⟩ | ⟨-, rfl⟩ | ⟨-, rfl⟩ | ⟨-, hi, rfl⟩ | ⟨hp, -, rfl⟩ | ⟨-, rfl⟩
  case inr.inr.inr.inr.inl => exact ⟨rfl, rfl, rfl, rfl, rfl, .inr ⟨hp, rfl⟩⟩
  all_goals exact ⟨rfl, rfl, rfl, rfl, rfl, .inl ⟨rfl, rfl⟩⟩

/-! ## Independence of the units (R43) -/

section
variable (s : State)

theorem whileRunning_setOtp (u : Otp) {r r' : Result} (hr : r' = mapNext (fun t => t.setOtp u) r) :
    whileRunning (s.setOtp u) r' = mapNext (fun t => t.setOtp u) (whileRunning s r) := by
  unfold whileRunning
  rw [State.setOtp_b32, hr]
  split <;> rfl

theorem pushClass_setOtp (k : SymClass) (u : Otp) :
    pushClass k (s.setOtp u) = mapNext (fun t => t.setOtp u) (pushClass k s) := by
  cases k
  all_goals apply whileRunning_setOtp
  case data v => rw [apply_ite (mapNext _)]; rfl
  all_goals rfl

theorem openCall_setB32 (key : List Byte) (ctr : Word64) (d : DigitLen) (u : B32) :
    openCall key ctr d (s.setB32 u) = mapNext (fun t => t.setB32 u) (openCall key ctr d s) := by
  unfold openCall
  rw [State.setB32_params]
  split <;> rfl

theorem whenIdle_setB32 (u : B32) {r r' : Result} (hr : r' = mapNext (fun t => t.setB32 u) r) :
    whenIdle (s.setB32 u) r' = mapNext (fun t => t.setB32 u) (whenIdle s r) := by
  unfold whenIdle
  rw [State.setB32_otp, hr]
  split <;> rfl

theorem exec_b32_setOtp {i : Instr} (hi : forOtp i = false) (u : Otp) :
    exec i (s.setOtp u) = mapNext (fun t => t.setOtp u) (exec i s) := by
  obtain rfl | ⟨k, hk⟩ := eq_b32Start_or_exec_eq_pushClass hi
  · rfl
  · rw [hk, hk, pushClass_setOtp]

theorem exec_otp_setB32 {i : Instr} (hi : forOtp i = true) (u : B32) :
    exec i (s.setB32 u) = mapNext (fun t => t.setB32 u) (exec i s) := by
  obtain rfl | ⟨n, rfl⟩ := (forOtp_iff i).mp hi
  · apply whenIdle_setB32
    rw [State.setB32_bundle]
    split
    · rfl
    · exact openCall_setB32 s _ _ _ u
  · apply whenIdle_setB32
    rw [State.setB32_bundle]
    cases digitLen? n with
    | none => rfl
    | some d => exact openCall_setB32 s _ _ _ u

theorem otpStage_setB32 (u : B32) : otpStage (s.setB32 u) = mapNext (fun t => t.setB32 u) (otpStage s) := by
  unfold otpStage
  rw [State.setB32_otp]
  cases s.otp.ph
  case digit => dsimp only; split_ifs <;> rfl
  all_goals rfl

end

/-- Settles O44: the meanings of a unit read that unit, the bundle and the parameters only. -/
theorem unitsShareNoState : Obligations.UnitsShareNoState :=
  ⟨fun _ s u hi => exec_b32_setOtp s hi u, fun _ s u hi => exec_otp_setB32 s hi u, otpStage_setB32⟩

/-- Settles O45: each of the two steps writes its own unit and does not read the other's. -/
theorem unitsCommute : Obligations.UnitsCommute := by
  intro i s t hi ht
  obtain ⟨v, -, rfl⟩ := exec_b32_move hi ht
  have hafter : ∀ w, exec i (s.setOtp w) = .next ((s.setB32 v).setOtp w) := fun w => by
    rw [exec_b32_setOtp s hi w, ht, mapNext_next]
  constructor
  · intro j u hj hu
    obtain ⟨w, -, rfl⟩ := exec_otp_move hj hu
    refine ⟨(s.setB32 v).setOtp w, ?_, hafter w⟩
    rw [exec_otp_setB32 s hj v, hu, mapNext_next, State.setOtp_setB32]
  · intro u hu
    obtain ⟨w, -, rfl⟩ := otpStage_move hu
    refine ⟨(s.setB32 v).setOtp w, ?_, hafter w⟩
    rw [otpStage_setB32 s v, hu, mapNext_next, State.setOtp_setB32]

end Sys2Proof.Machine
end

section
/-! The step, one equation per kind of next event (00_scope.md R4, R5, R11, 30_encoding.md R99, R104). -/

namespace Sys2Proof.Machine

section
variable {s : State} {rest : List Event}

theorem step_issue {w : CommandWord} {ops : Option Operands} {i : Instr} (hnext : s.pending = .issue w ops :: rest)
    (hi : decodeCommand w = .ok i) : step s = exec i (presentOperands ops (s.setPending rest)) := by
  simp [step, fetch, hnext, hi]

theorem step_idle (hnext : s.pending = []) : step s = otpStage s := by simp [step, fetch, hnext]

theorem step_otpTurn (hnext : s.pending = .otpTurn :: rest) : step s = otpStage (s.setPending rest) := by
  simp [step, fetch, hnext]

theorem step_waitB32 (hnext : s.pending = .waitB32 :: rest) :
    step s = if s.b32.ph ≠ .run then .next (s.setPending rest) else otpStage s := by
  simp [step, fetch, hnext, waitUntil, B32.finished]

theorem step_waitOtp (hnext : s.pending = .waitOtp :: rest) :
    step s = if s.otp.ph = .done ∨ s.otp.ph = .fail then .next (s.setPending rest) else otpStage s := by
  simp [step, fetch, hnext, waitUntil, Otp.finished]

theorem step_writePort {p : Port} (hnext : s.pending = .writePort p :: rest) : step s = .refused (.portWrite p) := by
  simp [step, fetch, hnext]

theorem step_reset (hnext : s.pending = .reset :: rest) : step s = .next (applyReset (s.setPending rest)) := by
  simp [step, fetch, hnext]

/-- No stage is enabled in IDLE, DONE and FAIL (R28). -/
theorem otpStage_idle (hidle : s.otp.ph.busy = false) : otpStage s = .next s := by
  unfold otpStage
  cases hp : s.otp.ph
  case idle => rfl
  case done => rfl
  case fail => rfl
  all_goals simp [hp, OtpPhase.busy] at hidle

end

/-! ## Words at the command port -/

@[simp] theorem decodeCommand_pushWord (c : Byte) : decodeCommand (commandWord 1#4 1#4 c) = .ok (.b32Push c) := by
  simp [decodeCommand_eq_ok_iff]

@[simp] theorem decodeCommand_hotpWord (n : BitVec 8) : decodeCommand (commandWord 2#4 0#4 n) = .ok (.otpHotp n) := by
  simp [decodeCommand_eq_ok_iff]

/-- The step that takes a word issued as the next action runs it on the state as it was. -/
theorem step_issueNext {w : CommandWord} {i : Instr} (hi : decodeCommand w = .ok i) (s : State) :
    step (issueNext w s) = exec i s :=
  step_issue (s := issueNext w s) rfl hi

/-- An OTP command brings its operands to the port, the key resolved, in the step that runs it (R99, R104). -/
theorem step_hotpEvent (s : State) (n : BitVec 8) (ctr : Word64) (key : KeySource) (rest : List Event) :
    step (s.setPending (hotpEvent n ctr key :: rest)) =
      exec (.otpHotp n) ((s.setPending rest).setBundle ⟨key.resolve s.b32, ctr, 0#64, 0#64, 0#64⟩) :=
  step_issue (s := s.setPending (hotpEvent n ctr key :: rest)) rfl (decodeCommand_hotpWord n)

theorem step_totpEvent (s : State) (t0 ivl now : Word64) (key : KeySource) (rest : List Event) :
    step (s.setPending (totpEvent t0 ivl now key :: rest)) =
      exec .otpTotp ((s.setPending rest).setBundle ⟨key.resolve s.b32, 0#64, t0, ivl, now⟩) :=
  step_issue (s := s.setPending (totpEvent t0 ivl now key :: rest)) rfl rfl

/-- Settles O35: the word's meaning is well formed, and presenting the operands is the change of the bundle. -/
theorem stepRunsTheIssuedCommand : Obligations.StepRunsTheIssuedCommand := by
  intro s w ops rest i hnext hi
  refine ⟨(wf_and_encode_of_decodeCommand hi).1, (step_issue hnext hi).trans ?_⟩
  cases ops with
  | none => rfl
  | some o => rfl

theorem decodeWord_of_decodeTableWord {nbits w : Nat} {i : Instr} (hi : decodeTableWord nbits w = some i) :
    decodeWord (tableWord nbits w) = .ok i := by
  unfold decodeTableWord at hi
  cases h : decodeWord (tableWord nbits w) with
  | error why => rw [h] at hi; cases hi
  | ok j => rw [h] at hi; cases hi; rfl

/-- Settles O36: a command is issued as it stands, and a symbol travels in a push, which runs the symbol's row. -/
theorem stepRunsTheTableWord : Obligations.StepRunsTheTableWord := by
  intro s nbits w i hi
  have hdecode := decodeWord_of_decodeTableWord hi
  unfold State.withFetchWord
  cases hword : tableWord nbits w with
  | command cw => exact step_issueNext (by rwa [hword] at hdecode) s
  | symbol c =>
    obtain rfl : decodeSymbol c = i := by rw [hword] at hdecode; exact Except.ok.inj hdecode
    exact (step_issueNext (decodeCommand_pushWord c) s).trans (pushRunsTheRowOfItsSymbol c s)

/-! ## Waits, writes and reset -/

/-- Settles O37: one equation per next event that brings no command. -/
theorem stepWithoutACommand : Obligations.StepWithoutACommand :=
  fun _ => ⟨step_idle, fun _ => step_otpTurn, fun _ => step_waitB32, fun _ => step_waitOtp, otpStage_idle⟩

/-- Settles O38: the write is settled without a step of the block. -/
theorem portWritesAreRefused : Obligations.PortWritesAreRefused := fun _ _ _ => step_writePort

/-- Settles O41: reset writes both register records, the B32 unit's being the one START writes. -/
theorem resetAbandonsTheCall : Obligations.ResetAbandonsTheCall :=
  fun _ _ hnext => ⟨_, step_reset hnext, rfl, rfl, rfl, rfl, rfl, rfl, rfl, rfl, rfl⟩

/-- Settles O39: the bundle presented with the word holds `B32.OUT` as the key, which the accepted call latches. -/
theorem keyHandOverFromB32 : Obligations.KeyHandOverFromB32 := by
  intro s n d ctr rest hn hidle hkey
  have haccept := hotpAcceptsLegalLength n d ((s.setPending rest).setBundle ⟨s.b32.out, ctr, 0#64, 0#64, 0#64⟩) hn hidle hkey
  exact ⟨_, (step_hotpEvent s n ctr .b32Out rest).trans haccept, rfl, rfl, rfl, rfl, rfl, rfl⟩

end Sys2Proof.Machine
end

section
/-! The HMAC request over a step (10_state.md R44, 20_memory.md R77, 70_reset_and_hazards.md R262). -/

namespace Sys2Proof.Machine

theorem Otp.request_hmac {u : Otp} (hp : u.ph = .hmac) : u.request = some (u.key, u.msg) := if_pos hp

theorem Otp.request_none {u : Otp} (hp : u.ph ≠ .hmac) : u.request = none := if_neg hp

theorem OtpPhase.ne_hmac_of_idle {p : OtpPhase} (hidle : p.busy = false) : p ≠ .hmac := by
  rintro rfl
  cases hidle

/-- Stage ENC writes what the functions take as the counter's bytes (20_memory.md R64). -/
theorem bigEndian8_toList (c : Word64) : (bigEndian8 c).toList = counterBytes c := by
  apply List.ext_getElem (by simp [counterBytes])
  intro k hk _
  have hbyte := bigEndian8_getElem_toNat c ⟨k, by simpa using hk⟩
  apply BitVec.eq_of_toNat_eq
  simpa [counterBytes] using hbyte

/-- Settles O34: ENC makes the request, HMAC answers it, a reset abandons it; no other move starts or ends in HMAC. -/
theorem hmacRequestLifecycle : Obligations.HmacRequestLifecycle := by
  intro s t h hchange
  have unchanged : s.otp.ph ≠ .hmac → t.otp.ph ≠ .hmac → False := fun hs ht =>
    hchange ((Otp.request_none ht).trans (Otp.request_none hs).symm)
  have hmove := (step_move h).otp
  generalize t.otp = v at *
  cases hmove with
  | rest => exact absurd rfl hchange
  | rejected hidle => exact (unchanged (OtpPhase.ne_hmac_of_idle hidle) nofun).elim
  | opened key ctr d hidle hkey => exact (unchanged (OtpPhase.ne_hmac_of_idle hidle) nofun).elim
  | enc hp =>
    exact .inl ⟨hp, Otp.request_none (by simp [hp]), bigEndian8 s.otp.ctr, bigEndian8_toList s.otp.ctr, Otp.request_hmac rfl⟩
  | hmac hp => exact .inr ⟨hp, Otp.request_none nofun, .inl ⟨rfl, rfl⟩⟩
  | trunc hp => exact (unchanged (by simp [hp]) nofun).elim
  | digit hp hi => exact (unchanged (by simp [hp]) (by simp [stageDigit, hp])).elim
  | render hp hi => exact (unchanged (by simp [hp]) nofun).elim
  | reset =>
    have hp : s.otp.ph = .hmac := by
      by_contra hne
      exact unchanged hne nofun
    exact .inr ⟨hp, Otp.request_none nofun, .inr rfl⟩

end Sys2Proof.Machine
end

section
/-! What an action keeps of the bits consumed so far (10_state.md R26, 40_base32_decoder.md R136, R141). -/

namespace Sys2Proof.Machine

/-- The B32 unit after a data symbol of value `v` (R122 to R124). -/
abbrev B32.absorb (u : B32) (v : SymVal) : B32 := u.merged (accumulate u.fill u.acc v)

/-- The bits of `ACC` below its `FILL` valid ones are zero (R26 b). -/
def B32.UnfilledZero (u : B32) : Prop := u.acc.toNat % 2 ^ (8 - u.fill.val) = 0

/-- The valid bits of `ACC` as a number. -/
def B32.validBits (u : B32) : Nat := u.acc.toNat / 2 ^ (8 - u.fill.val)

/-- Bytes as one big-endian number. -/
def bytesValue (bytes : List Byte) : Nat := bytes.foldl (fun b c => b * 256 + c.toNat) 0

/-- All bits consumed so far as one number: the bytes of `OUT`, then the valid bits of `ACC` (R141). -/
def B32.consumedBits (u : B32) : Nat := bytesValue u.out * 2 ^ u.fill.val + u.validBits

theorem bytesValue_append_singleton (bytes : List Byte) (c : Byte) :
    bytesValue (bytes ++ [c]) = bytesValue bytes * 256 + c.toNat := List.foldl_append

section
variable {u : B32}

theorem acc_eq_validBits_mul (h : u.UnfilledZero) : u.acc.toNat = u.validBits * 2 ^ (8 - u.fill.val) :=
  (Nat.div_mul_cancel (Nat.dvd_of_mod_eq_zero h)).symm

/-- A number below the valid bits is put in by OR, which is then the sum, and the result is still a byte. -/
theorem acc_or_toNat (h : u.UnfilledZero) {x : Nat} (hx : x < 2 ^ (8 - u.fill.val)) :
    (BitVec.ofNat 8 (u.acc.toNat ||| x)).toNat = u.validBits * 2 ^ (8 - u.fill.val) + x := by
  have hbyte : u.acc.toNat ||| x < 2 ^ 8 :=
    Nat.or_lt_two_pow u.acc.isLt (hx.trans_le (Nat.pow_le_pow_right (by decide) (Nat.sub_le 8 _)))
  rw [BitVec.toNat_ofNat, Nat.mod_eq_of_lt hbyte, acc_eq_validBits_mul h, Nat.mul_comm, Nat.two_pow_add_eq_or_of_lt hx]

/-! The two kinds of actions as numbers: below `FILL` 3 the value goes under the valid bits; from 3 on its high bits complete
a byte and its low bits are the new valid bits. -/

theorem absorb_fill_of_lt (hf : u.fill.val < 3) (v : SymVal) : (u.absorb v).fill.val = u.fill.val + 5 := by
  have hfill := (oneFormulaForAllActions u.fill u.acc v).2.1
  exact hfill.trans (by omega)

theorem absorb_fill_of_ge (hf : 3 ≤ u.fill.val) (v : SymVal) : (u.absorb v).fill.val = u.fill.val - 3 := by
  have hfill := (oneFormulaForAllActions u.fill u.acc v).2.1
  exact hfill.trans (by omega)

theorem absorb_out_of_lt (hf : u.fill.val < 3) (v : SymVal) : (u.absorb v).out = u.out := by
  simp [B32.merged, (accumulate_emitted_none _ _ _).mpr hf]

theorem absorb_acc_of_lt (h : u.UnfilledZero) (hf : u.fill.val < 3) (v : SymVal) :
    (u.absorb v).acc.toNat = (u.validBits * 32 + v.toNat) * 2 ^ (3 - u.fill.val) := by
  have hv : v.toNat * 2 ^ (3 - u.fill.val) < 2 ^ (8 - u.fill.val) := by
    rw [show 8 - u.fill.val = 5 + (3 - u.fill.val) by omega, pow_add]
    exact Nat.mul_lt_mul_of_pos_right v.isLt (Nat.two_pow_pos _)
  have hacc : (u.absorb v).acc = BitVec.ofNat 8 (u.acc.toNat ||| v.toNat * 2 ^ (3 - u.fill.val)) := by
    simp [B32.merged, accumulate_eq_mergeFormula, mergeFormula, hf]
  rw [hacc, acc_or_toNat h hv, show 8 - u.fill.val = 5 + (3 - u.fill.val) by omega, pow_add]
  ring

theorem absorb_acc_of_ge (hf : 3 ≤ u.fill.val) (v : SymVal) :
    (u.absorb v).acc.toNat = v.toNat % 2 ^ (u.fill.val - 3) * 2 ^ (11 - u.fill.val) := by
  have hacc : (u.absorb v).acc = BitVec.ofNat 8 (v.toNat * 2 ^ (11 - u.fill.val)) := by
    simp [B32.merged, accumulate_eq_mergeFormula, mergeFormula, Nat.not_lt.mpr hf]
  have hbits : 2 ^ 8 = 2 ^ (u.fill.val - 3) * 2 ^ (11 - u.fill.val) := by
    rw [← pow_add]
    congr 1
    omega
  rw [hacc, BitVec.toNat_ofNat, hbits, Nat.mul_mod_mul_right]

theorem absorb_out_of_ge (h : u.UnfilledZero) (hf : 3 ≤ u.fill.val) (v : SymVal) :
    ∃ b : Byte, (u.absorb v).out = u.out ++ [b] ∧
      b.toNat = u.validBits * 2 ^ (8 - u.fill.val) + v.toNat / 2 ^ (u.fill.val - 3) := by
  have hv : v.toNat / 2 ^ (u.fill.val - 3) < 2 ^ (8 - u.fill.val) := by
    rw [Nat.div_lt_iff_lt_mul (Nat.two_pow_pos _), ← pow_add, show 8 - u.fill.val + (u.fill.val - 3) = 5 by omega]
    exact v.isLt
  refine ⟨_, ?_, acc_or_toNat h hv⟩
  simp [B32.merged, accumulate_eq_mergeFormula, mergeFormula, Nat.not_lt.mpr hf]

/-! ## What every action keeps -/

theorem absorb_unfilledZero (h : u.UnfilledZero) (v : SymVal) : (u.absorb v).UnfilledZero := by
  unfold B32.UnfilledZero
  by_cases hf : u.fill.val < 3
  · rw [absorb_acc_of_lt h hf, absorb_fill_of_lt hf, show 8 - (u.fill.val + 5) = 3 - u.fill.val by omega]
    exact Nat.mul_mod_left _ _
  · rw [absorb_acc_of_ge (Nat.not_lt.mp hf), absorb_fill_of_ge (Nat.not_lt.mp hf),
      show 8 - (u.fill.val - 3) = 11 - u.fill.val by omega]
    exact Nat.mul_mod_left _ _

/-- Each symbol adds five bits to what `OUT` and `ACC` hold (R26 a). -/
theorem absorb_bitCount (u : B32) (v : SymVal) :
    8 * (u.absorb v).out.length + (u.absorb v).fill.val = 8 * u.out.length + u.fill.val + 5 := by
  by_cases hf : u.fill.val < 3
  · rw [absorb_out_of_lt hf, absorb_fill_of_lt hf]
    omega
  · have hemits : (accumulate u.fill u.acc v).emitted ≠ none := by rwa [Ne, accumulate_emitted_none]
    obtain ⟨b, hb⟩ := Option.ne_none_iff_exists'.mp hemits
    have hout : (u.absorb v).out.length = u.out.length + 1 := by simp [B32.merged, hb]
    rw [hout, absorb_fill_of_ge (Nat.not_lt.mp hf)]
    omega

/-- Each symbol appends its value to the number of the consumed bits (R141). -/
theorem absorb_consumedBits (h : u.UnfilledZero) (v : SymVal) :
    (u.absorb v).consumedBits = u.consumedBits * 32 + v.toNat := by
  unfold B32.consumedBits
  by_cases hf : u.fill.val < 3
  · have hbits : (u.absorb v).validBits = u.validBits * 32 + v.toNat := by
      unfold B32.validBits
      rw [absorb_acc_of_lt h hf, absorb_fill_of_lt hf, show 8 - (u.fill.val + 5) = 3 - u.fill.val by omega]
      exact Nat.mul_div_cancel _ (Nat.two_pow_pos _)
    rw [hbits, absorb_out_of_lt hf, absorb_fill_of_lt hf, pow_add]
    ring
  · have hge : 3 ≤ u.fill.val := Nat.not_lt.mp hf
    have hbits : (u.absorb v).validBits = v.toNat % 2 ^ (u.fill.val - 3) := by
      unfold B32.validBits
      rw [absorb_acc_of_ge hge, absorb_fill_of_ge hge, show 8 - (u.fill.val - 3) = 11 - u.fill.val by omega]
      exact Nat.mul_div_cancel _ (Nat.two_pow_pos _)
    obtain ⟨b, hout, hb⟩ := absorb_out_of_ge h hge v
    have hv := Nat.div_add_mod v.toNat (2 ^ (u.fill.val - 3))
    have hbyte : 2 ^ u.fill.val = 8 * 2 ^ (u.fill.val - 3) := by
      rw [show u.fill.val = 3 + (u.fill.val - 3) by omega, pow_add]
      simp
    have hword : 2 ^ (8 - u.fill.val) * 2 ^ (u.fill.val - 3) = 32 := by
      rw [← pow_add, show 8 - u.fill.val + (u.fill.val - 3) = 5 by omega]
      rfl
    calc bytesValue (u.absorb v).out * 2 ^ (u.absorb v).fill.val + (u.absorb v).validBits
      _ = (bytesValue u.out * 256 + b.toNat) * 2 ^ (u.fill.val - 3) + v.toNat % 2 ^ (u.fill.val - 3) := by
        rw [hout, bytesValue_append_singleton, absorb_fill_of_ge hge, hbits]
      _ = bytesValue u.out * (8 * 2 ^ (u.fill.val - 3)) * 32 + u.validBits * (2 ^ (8 - u.fill.val) * 2 ^ (u.fill.val - 3)) +
          (2 ^ (u.fill.val - 3) * (v.toNat / 2 ^ (u.fill.val - 3)) + v.toNat % 2 ^ (u.fill.val - 3)) := by
        rw [hb]
        ring
      _ = (bytesValue u.out * 2 ^ u.fill.val + u.validBits) * 32 + v.toNat := by
        rw [hv, hword, ← hbyte]
        ring

end

end Sys2Proof.Machine
end

section
/-! The functions `hotp` and `totp` (41_hotp_engine.md R167, R169, R170, 42_totp.md R204), and the codes of the registers. -/

namespace Sys2Proof.Machine

/-! ## Decimal digits (R166, R167) -/

@[simp] theorem codeOf_length (p n : Nat) : (codeOf p n).length = n := by simp [codeOf]

theorem codeOf_getElem (p n : Nat) {j : Nat} (hj : j < (codeOf p n).length) :
    (codeOf p n)[j] = BitVec.ofNat 8 (0x30 + p / 10 ^ (n - 1 - j) % 10) := by simp [codeOf]

/-- The last character is the last digit; those before it are the code of the quotient. -/
theorem codeOf_succ (p n : Nat) : codeOf p (n + 1) = codeOf (p / 10) n ++ [BitVec.ofNat 8 (0x30 + p % 10)] := by
  rw [codeOf, List.range_succ, List.map_append, List.map_singleton, Nat.add_sub_cancel, Nat.sub_self, pow_zero, Nat.div_one]
  congr 1
  apply List.map_congr_left
  intro j hj
  have hplace : n - j = 1 + (n - 1 - j) := by have := List.mem_range.mp hj; omega
  rw [hplace, pow_add, pow_one, Nat.div_div_eq_div_mul]

theorem digitByte_toNat (q : Nat) : (BitVec.ofNat 8 (0x30 + q % 10)).toNat = 0x30 + q % 10 := by
  rw [BitVec.toNat_ofNat]
  omega

theorem decimalValue_codeOf (p n : Nat) : decimalValue (codeOf p n) = p % 10 ^ n := by
  induction n generalizing p with
  | zero => exact (Nat.mod_one p).symm
  | succ n ih =>
    calc decimalValue (codeOf p (n + 1))
      _ = decimalValue (codeOf (p / 10) n) * 10 + ((BitVec.ofNat 8 (0x30 + p % 10)).toNat - 0x30) := by
        rw [codeOf_succ, decimalValue, List.foldl_append]
        rfl
      _ = p % 10 + 10 * (p / 10 % 10 ^ n) := by
        rw [ih, digitByte_toNat]
        omega
      _ = p % 10 ^ (n + 1) := by rw [Nat.pow_succ', Nat.mod_mul]

/-- Settles O58: digit by digit from the last one. -/
theorem codeIsDecimalOfTruncatedValue : Obligations.CodeIsDecimalOfTruncatedValue := by
  intro p n
  refine ⟨codeOf_length p n, decimalValue_codeOf p n, fun c hc => ?_⟩
  obtain ⟨j, -, rfl⟩ := List.mem_map.mp hc
  rw [digitByte_toNat]
  omega

theorem codeOf_drop {m n : Nat} (hmn : m ≤ n) (p : Nat) : (codeOf p n).drop (n - m) = codeOf p m := by
  apply List.ext_getElem (by simp [Nat.sub_sub_self hmn])
  intro j _ hj
  rw [codeOf_length] at hj
  rw [List.getElem_drop, codeOf_getElem, codeOf_getElem, show n - 1 - (n - m + j) = m - 1 - j by omega]

/-- Settles O57: both codes are of one truncated value. -/
theorem shorterCodesAreSuffixes : Obligations.ShorterCodesAreSuffixes := by
  intro hmac key ctr m n hm hmn hn
  have hcode : ∀ k, 6 ≤ k → k ≤ 8 → hotpCode hmac key ctr k = .ok (codeOf (truncatedNat (hmac key (counterBytes ctr))) k) :=
    fun k hlow hhigh => if_pos (by omega)
  exact ⟨_, _, hcode m hm (hmn.trans hn), hcode n (hm.trans hmn) hn, codeOf_length _ _, codeOf_length _ _, codeOf_drop hmn _⟩

/-! ## Time windows (R204) -/

/-- At a time of window `k` the function is that of the counter `k` (R201). -/
theorem totpCode_window {hmac : List Byte → List Byte → Digest} {key : List Byte} {t0 ivl now : Word64} {k : Nat}
    (hivl : ivl.toNat ≠ 0) (hlow : t0.toNat + k * ivl.toNat ≤ now.toNat)
    (hhigh : now.toNat ≤ t0.toNat + (k + 1) * ivl.toNat - 1) :
    totpCode hmac key t0 ivl now = hotpCode hmac key (BitVec.ofNat 64 k) 6 := by
  have hquotient : (now.toNat - t0.toNat) / ivl.toNat = k := by
    apply Nat.div_eq_of_lt_le
    · omega
    · have hpos : 0 < (k + 1) * ivl.toNat := Nat.mul_pos k.succ_pos (Nat.pos_of_ne_zero hivl)
      omega
  have htests : ¬(ivl.toNat = 0 ∨ now.toNat < t0.toNat) := by omega
  rw [totpCode, if_neg htests, hquotient]

/-- Settles O59: both times have the code of the window's counter. -/
theorem totpIsConstantOnAWindow : Obligations.TotpIsConstantOnAWindow := by
  intro hmac key t0 ivl now now' k hivl hlow hhigh hlow' hhigh'
  have hnow := totpCode_window (hmac := hmac) (key := key) hivl hlow hhigh
  have hnow' := totpCode_window (hmac := hmac) (key := key) hivl hlow' hhigh'
  exact ⟨hnow.trans hnow'.symm, hnow⟩

end Sys2Proof.Machine
end

section
/-! The register invariant over every move of either unit (10_state.md R24 to R27, R36 to R39). -/

namespace Sys2Proof.Machine

theorem withinCap_zero (cap : Option Nat) : withinCap cap 0 = true := by
  cases cap with
  | none => rfl
  | some m => exact decide_eq_true (Nat.zero_le m)

theorem withinCap_mono {cap : Option Nat} {k l : Nat} (hkl : k ≤ l) (h : withinCap cap l = true) : withinCap cap k = true := by
  cases cap with
  | none => rfl
  | some m => exact decide_eq_true (hkl.trans (of_decide_eq_true h))

/-! ## The B32 unit -/

section
variable {p : Config.Params} {u v : B32}

theorem B32.opened_ok (p : Config.Params) : B32.opened.Ok p where
  ecode_of_phase := rfl
  failed_empty := nofun
  stopped_clear := fun hrun => absurd rfl hrun
  low_bits_zero := rfl
  whole_symbols := fun _ => rfl
  within_cap := withinCap_zero _

theorem B32.absorb_ok (h : u.Ok p) (hrun : u.ph = .run) (w : SymVal)
    (hcap : (accumulate u.fill u.acc w).emitted = none ∨ withinCap p.b32OutCap (u.absorb w).out.length = true) :
    (u.absorb w).Ok p where
  ecode_of_phase := h.ecode_of_phase
  failed_empty := fun hfail => by cases hrun.symm.trans hfail
  stopped_clear := fun hstop => absurd hrun hstop
  low_bits_zero := absorb_unfilledZero h.low_bits_zero w
  whole_symbols := fun _ => by
    have hold := h.whole_symbols hrun
    have hcount := absorb_bitCount u w
    omega
  within_cap := by
    rcases hcap with hnone | hcap
    · have hout : (u.absorb w).out = u.out := absorb_out_of_lt ((accumulate_emitted_none _ _ _).mp hnone) w
      rw [hout]
      exact h.within_cap
    · exact hcap

theorem B32.stopped_ok (h : u.Ok p) (hrun : u.ph = .run) : B32.Ok p { u.discard with ph := .done } where
  ecode_of_phase := h.ecode_of_phase.trans (if_neg (by simp [hrun]))
  failed_empty := nofun
  stopped_clear := fun _ => ⟨rfl, rfl⟩
  low_bits_zero := rfl
  whole_symbols := nofun
  within_cap := h.within_cap

theorem B32.failed_ok (p : Config.Params) (u : B32) :
    B32.Ok p { u with ph := .fail, ecode := .decodeError, out := [], acc := 0#8, fill := 0 } where
  ecode_of_phase := rfl
  failed_empty := fun _ => rfl
  stopped_clear := fun _ => ⟨rfl, rfl⟩
  low_bits_zero := rfl
  whole_symbols := nofun
  within_cap := withinCap_zero _

theorem B32.Move.ok (hmove : B32.Move p u v) (h : u.Ok p) : v.Ok p := by
  cases hmove with
  | rest => exact h
  | opened => exact B32.opened_ok p
  | merged w hrun hcap => exact B32.absorb_ok h hrun w hcap
  | stopped hrun => exact B32.stopped_ok h hrun
  | failed hrun => exact B32.failed_ok p u

end

/-! ## The OTP unit -/

section
variable {p : Config.Params} {u v : Otp}

/-- A unit without a result, outside the phases that count or show digits. -/
theorem Otp.Ok.of_no_result (hdigit : v.ph ≠ .digit) (hdone : v.ph ≠ .done) (hclen : v.clen = none)
    (hcode : v.code = Vector.replicate 8 0#8) (hecode : v.ecode = if v.ph = .fail then .invalidParameter else .ok) :
    v.Ok where
  ecode_of_phase := hecode
  no_code := fun _ => ⟨hclen, hcode⟩
  count_le := fun hp => absurd hp hdigit
  code_length := fun hp => absurd hp hdone
  code_chars := fun hp => absurd hp hdone

theorem OtpPhase.busy_ne_fail {q : OtpPhase} (hq : q.busy = true) : q ≠ .fail := by rintro rfl; cases hq

theorem OtpPhase.busy_ne_done {q : OtpPhase} (hq : q.busy = true) : q ≠ .done := by rintro rfl; cases hq

/-- A stage from one busy phase to another leaves the result registers as they are (20_memory.md R70). -/
theorem Otp.Ok.of_stage (h : u.Ok) (hu : u.ph.busy = true) (hv : v.ph.busy = true) (hcode : v.code = u.code)
    (hclen : v.clen = u.clen) (hecode : v.ecode = u.ecode) (hcount : v.ph = .digit → v.i.val ≤ v.n.toNat) : v.Ok where
  ecode_of_phase := by
    rw [hecode, h.ecode_of_phase, if_neg (OtpPhase.busy_ne_fail hu), if_neg (OtpPhase.busy_ne_fail hv)]
  no_code := fun _ => by
    rw [hclen, hcode]
    exact h.no_code (OtpPhase.busy_ne_done hu)
  count_le := hcount
  code_length := fun hp => absurd hp (OtpPhase.busy_ne_done hv)
  code_chars := fun hp => absurd hp (OtpPhase.busy_ne_done hv)

theorem digitChar_isDigit : ∀ d : Fin 10, 0x30#8 ≤ digitChar d ∧ digitChar d ≤ 0x39#8 := by decide

/-- The rendered cells are ASCII digits up to `N` and zero from there on (R38, R165). -/
theorem rendered_chars (n : DigitLen) (dig : Vector (Fin 10) 8) (j : Fin 8) :
    (j.val < n.toNat → 0x30#8 ≤ (rendered n dig)[j.val] ∧ (rendered n dig)[j.val] ≤ 0x39#8) ∧
    (n.toNat ≤ j.val → (rendered n dig)[j.val] = 0#8) := by
  refine ⟨fun hj => ?_, rendered_getElem_of_ge⟩
  have hk : n.toNat - 1 - j.val < 8 := by have := n.toNat_le; omega
  rw [rendered_getElem_of_lt (j := j) (k := ⟨n.toNat - 1 - j.val, hk⟩) (by simp only; omega)]
  exact digitChar_isDigit _

theorem stageRender_ok (h : u.Ok) (hp : u.ph = .digit) : (stageRender u).Ok where
  ecode_of_phase := h.ecode_of_phase.trans (if_neg (by simp [hp]))
  no_code := fun hdone => absurd rfl hdone
  count_le := nofun
  code_length := fun _ => rfl
  code_chars := fun _ => rendered_chars u.n u.dig

theorem Otp.reset_ok : Otp.reset.Ok := .of_no_result nofun nofun rfl rfl rfl

theorem Otp.Move.ok (hmove : Otp.Move p u v) (h : u.Ok) : v.Ok := by
  cases hmove with
  | rest => exact h
  | rejected hidle => exact .of_no_result nofun nofun rfl rfl rfl
  | opened key ctr d hidle hkey => exact .of_no_result nofun nofun rfl rfl rfl
  | enc hp => exact h.of_stage (congrArg _ hp) rfl rfl rfl rfl nofun
  | hmac hp => exact h.of_stage (congrArg _ hp) rfl rfl rfl rfl nofun
  | trunc hp => exact h.of_stage (congrArg _ hp) rfl rfl rfl rfl fun _ => Nat.zero_le _
  | digit hp hi => exact h.of_stage (congrArg _ hp) (congrArg _ hp) rfl rfl rfl fun _ => hi
  | render hp hi => exact stageRender_ok h hp
  | reset => exact Otp.reset_ok

/-- Only the opening of a call and reset write `KEY` (41_hotp_engine.md R160). -/
theorem Otp.Move.key_within_cap (hmove : Otp.Move p u v) (h : withinCap p.keyCap u.key.length = true) :
    withinCap p.keyCap v.key.length = true := by
  cases hmove with
  | opened key ctr d hidle hkey => exact hkey
  | reset => exact withinCap_zero _
  | _ => exact h

end

/-- Settles O47: each unit's move keeps its part. -/
theorem stepKeepsRegisterInvariant : Obligations.StepKeepsRegisterInvariant := by
  intro s t h hstep
  obtain ⟨hb32, hotp, hparams⟩ := step_move hstep
  refine ⟨?_, hotp.ok h.otp, ?_⟩
  · rw [hparams]
    exact hb32.ok h.b32
  · rw [hparams]
    exact hotp.key_within_cap h.key_within_cap

end Sys2Proof.Machine
end

section
/-! The call trace over every move of the OTP unit (41_hotp_engine.md R161 to R166). -/

namespace Sys2Proof.Machine

/-! ## The truncation and the code as functions -/

theorem truncOffset_eq_digestByte (h : Digest) : (truncOffset h).toNat = digestByte h 19 % 16 := by
  rw [truncOffset_toNat, digestByte_eq_getElem_toNat h (by decide : 19 < 20)]

theorem truncValue_eq_truncatedNat (h : Digest) : (truncValue h).toNat = truncatedNat h := by
  rw [truncValue_toNat, window_toNat, truncOffset_eq_digestByte]
  rfl

theorem DigitLen.legal (d : DigitLen) : d.toNat = 6 ∨ d.toNat = 7 ∨ d.toNat = 8 := by cases d <;> decide

theorem hotpCode_digitLen (hmac : List Byte → List Byte → Digest) (key : List Byte) (ctr : Word64) (d : DigitLen) :
    hotpCode hmac key ctr d.toNat = .ok (codeOf (truncatedNat (hmac key (counterBytes ctr))) d.toNat) := if_pos d.legal

/-- Digits that are the decimal digits of `p` render as the code of `p` (R165, R166). -/
theorem rendered_take_eq_codeOf {n : DigitLen} {dig : Vector (Fin 10) 8} {p : Nat}
    (hdig : ∀ j : Fin 8, j.val < n.toNat → (dig[j.val]).val = p / 10 ^ j.val % 10) :
    (rendered n dig).toList.take n.toNat = codeOf p n.toNat := by
  have hn := n.toNat_le
  apply List.ext_getElem (by simp [codeOf, hn])
  intro j hj _
  have hjn : j < n.toNat := by simp at hj; omega
  have hk : n.toNat - 1 - j < 8 := by omega
  have hcell := rendered_getElem_of_lt (n := n) (dig := dig) (j := ⟨j, by omega⟩) (k := ⟨n.toNat - 1 - j, hk⟩)
    (by simp only; omega)
  have hdigit := hdig ⟨n.toNat - 1 - j, hk⟩ (by simp only; omega)
  apply BitVec.eq_of_toNat_eq
  rw [List.getElem_take, Vector.getElem_toList, codeOf_getElem, digitByte_toNat, hcell, digitChar_toNat, hdigit]

/-! ## The trace -/

section
variable {p : Config.Params} {u v : Otp}

/-- In IDLE, ENC and FAIL no working register of the current call has been written. -/
theorem Otp.Traced.of_unwritten (h : v.ph = .idle ∨ v.ph = .enc ∨ v.ph = .fail) : v.Traced := by
  rcases h with hp | hp | hp
  all_goals constructor <;> simp [hp]

theorem stageEnc_traced (u : Otp) : (stageEnc u).Traced where
  msg_of_ctr := fun _ => bigEndian8_toList u.ctr
  hash_of_request := by rintro (h | h | h) <;> cases h
  trunc_of_hash := by rintro (h | h) <;> cases h
  quotient := nofun
  digits := nofun
  result_is_hotp := nofun

theorem stageHmac_traced (h : u.Traced) (hp : u.ph = .hmac) : (stageHmac u).Traced where
  msg_of_ctr := fun _ => h.msg_of_ctr (.inl hp)
  hash_of_request := fun _ => congrArg (Config.hmac u.key) (h.msg_of_ctr (.inl hp))
  trunc_of_hash := by rintro (h | h) <;> cases h
  quotient := nofun
  digits := nofun
  result_is_hotp := nofun

theorem stageTrunc_traced (h : u.Traced) (hp : u.ph = .trunc) : (stageTrunc u).Traced where
  msg_of_ctr := fun _ => h.msg_of_ctr (.inr (.inl hp))
  hash_of_request := fun _ => h.hash_of_request (.inl hp)
  trunc_of_hash := fun _ => ⟨truncOffset_eq_digestByte u.hash, truncValue_eq_truncatedNat u.hash⟩
  quotient := fun _ => (Nat.div_one _).symm
  digits := fun _ _ hj => absurd hj (Nat.not_lt_zero _)
  result_is_hotp := nofun

theorem stageDigit_traced (h : u.Traced) (hp : u.ph = .digit) (hi : u.i.val < u.n.toNat) : (stageDigit u hi).Traced where
  msg_of_ctr := fun _ => h.msg_of_ctr (.inr (.inr (.inl hp)))
  hash_of_request := fun _ => h.hash_of_request (.inr (.inl hp))
  trunc_of_hash := fun _ => h.trunc_of_hash (.inl hp)
  quotient := fun _ => by
    calc (stageDigit u hi).q.toNat
      _ = u.p.toNat / 10 ^ u.i.val / 10 := by rw [stageDigit_q_toNat, h.quotient hp]
      _ = u.p.toNat / 10 ^ (u.i.val + 1) := by rw [Nat.div_div_eq_div_mul, pow_succ]
  digits := fun _ j hj => by
    rw [stageDigit_dig_getElem]
    split_ifs with heq
    · rw [h.quotient hp, heq]
      rfl
    · have hlt : j.val < u.i.val := by
        have : j.val < u.i.val + 1 := hj
        omega
      exact h.digits hp j hlt
  result_is_hotp := fun hdone => by cases hp.symm.trans hdone

theorem stageRender_traced (h : u.Traced) (hp : u.ph = .digit) (hi : u.i.val = u.n.toNat) : (stageRender u).Traced where
  msg_of_ctr := fun _ => h.msg_of_ctr (.inr (.inr (.inl hp)))
  hash_of_request := fun _ => h.hash_of_request (.inr (.inl hp))
  trunc_of_hash := fun _ => h.trunc_of_hash (.inl hp)
  quotient := nofun
  digits := nofun
  result_is_hotp := fun _ => by
    have hdig : ∀ j : Fin 8, j.val < u.n.toNat → (u.dig[j.val]).val = u.p.toNat / 10 ^ j.val % 10 :=
      fun j hj => h.digits hp j (hi ▸ hj)
    have hvalue : u.p.toNat = truncatedNat (Config.hmac u.key (counterBytes u.ctr)) := by
      rw [(h.trunc_of_hash (.inl hp)).2, h.hash_of_request (.inr (.inl hp))]
    calc (stageRender u).result
      _ = some (.ok ((rendered u.n u.dig).toList.take u.n.toNat)) := rfl
      _ = some (hotpCode Config.hmac u.key u.ctr u.n.toNat) := by
        rw [rendered_take_eq_codeOf hdig, hvalue, hotpCode_digitLen]

theorem Otp.Move.traced (hmove : Otp.Move p u v) (h : u.Traced) : v.Traced := by
  cases hmove with
  | rest => exact h
  | rejected hidle => exact .of_unwritten (.inr (.inr rfl))
  | opened key ctr d hidle hkey => exact .of_unwritten (.inr (.inl rfl))
  | enc hp => exact stageEnc_traced u
  | hmac hp => exact stageHmac_traced h hp
  | trunc hp => exact stageTrunc_traced h hp
  | digit hp hi => exact stageDigit_traced h hp hi
  | render hp hi => exact stageRender_traced h hp hi
  | reset => exact .of_unwritten (.inl rfl)

end

/-- Settles O48: the move of the OTP unit keeps the trace. -/
theorem stepKeepsCallTrace : Obligations.StepKeepsCallTrace := fun _ _ h hstep => (step_move hstep).otp.traced h

/-- Settles O46: both units after reset are ones that a move can lead to, and no key is latched. -/
theorem resetMeetsInvariants : Obligations.ResetMeetsInvariants :=
  ⟨⟨B32.opened_ok _, Otp.reset_ok, withinCap_zero _⟩, .of_unwritten (.inl rfl)⟩

end Sys2Proof.Machine
end

section
/-! The function `decode`, symbol by symbol, and its laws (40_base32_decoder.md R139 to R145). -/

namespace Sys2Proof.Machine

/-! ## One symbol of a text -/

/-- `decode` of the rest of a text, going on from the registers of a unit in RUN. -/
def B32.decodeRest (u : B32) (t : List Byte) : Except ECode (List Byte) := decodeFrom t u.acc u.fill u.out

theorem decodeText_eq_decodeRest (t : List Byte) : decodeText t = B32.opened.decodeRest t := rfl

@[simp] theorem B32.decodeRest_nil (u : B32) : u.decodeRest [] = .ok u.out := rfl

section
variable (u : B32) {c : Byte} (t : List Byte)

theorem B32.decodeRest_pad (hc : classify c = .pad) : u.decodeRest (c :: t) = .ok u.out :=
  if_pos (upcase_eq_padCode_iff.mpr hc)

theorem B32.decodeRest_data {v : SymVal} (hc : classify c = .data v) : u.decodeRest (c :: t) = (u.absorb v).decodeRest t := by
  obtain ⟨hpad, hv⟩ := classify_eq_data_iff.mp hc
  simp [decodeRest, decodeFrom, hpad, hv, ← accumulate_eq_mergeFormula, merged]

theorem B32.decodeRest_invalid (hc : classify c = .invalid) : u.decodeRest (c :: t) = .error .decodeError := by
  have hpad : upcase c ≠ padCode := by rw [Ne, upcase_eq_padCode_iff, hc]; nofun
  have hv : val? (upcase c) = none := by
    by_contra hsome
    obtain ⟨v, hv⟩ := Option.ne_none_iff_exists'.mp hsome
    cases hc.symm.trans (classify_of_val hpad hv)
  simp [decodeRest, decodeFrom, hpad, hv]

/-! The consumed part of a text ends before the first `=` (00_scope.md R13). -/

theorem consumed_pad (hc : classify c = .pad) : consumed (c :: t) = [] := by
  simp [consumed, upcase_eq_padCode_iff.mpr hc]

theorem consumed_not_pad (hc : classify c ≠ .pad) : consumed (c :: t) = c :: consumed t := by
  simp [consumed, upcase_eq_padCode_iff, hc]

theorem consumedValues_data {v : SymVal} (hc : classify c = .data v) : consumedValues (c :: t) = v :: consumedValues t := by
  rw [consumedValues, consumed_not_pad t (by simp [hc])]
  exact List.filterMap_cons_some (classify_eq_data_iff.mp hc).2

end

/-! ## Failure, the sentinel, letter case -/

/-- Only an invalid character before the first `=` ends a decode with an error (R145). -/
theorem decodeRest_error_iff (t : List Byte) (u : B32) :
    (u.decodeRest t = .error .decodeError ↔ ∃ c ∈ consumed t, classify c = .invalid) ∧
    ((∃ out, u.decodeRest t = .ok out) ∨ u.decodeRest t = .error .decodeError) := by
  induction t generalizing u with
  | nil => simp [consumed]
  | cons c t ih =>
    cases hc : classify c with
    | pad => simp [u.decodeRest_pad t hc, consumed_pad t hc]
    | data v => simpa [u.decodeRest_data t hc, consumed_not_pad t (by simp [hc] : classify c ≠ .pad), hc] using ih (u.absorb v)
    | invalid => simp [u.decodeRest_invalid t hc, consumed_not_pad t (by simp [hc] : classify c ≠ .pad), hc]

/-- Settles O53: by induction on the text, symbol by symbol. -/
theorem decodeFailsExactlyOnInvalid : Obligations.DecodeFailsExactlyOnInvalid := fun text =>
  decodeRest_error_iff text B32.opened

theorem decodeRest_append_pad (a b : List Byte) (u : B32) : u.decodeRest (a ++ 0x3D#8 :: b) = u.decodeRest a := by
  induction a generalizing u with
  | nil => exact u.decodeRest_pad b rfl
  | cons c a ih =>
    cases hc : classify c with
    | pad => exact (u.decodeRest_pad _ hc).trans (u.decodeRest_pad _ hc).symm
    | data v => exact (u.decodeRest_data _ hc).trans ((ih _).trans (u.decodeRest_data _ hc).symm)
    | invalid => exact (u.decodeRest_invalid _ hc).trans (u.decodeRest_invalid _ hc).symm

/-- Settles O54: the scan goes as far as without the rest, and ends at the `=`. -/
theorem decodeStopsAtFirstPad : Obligations.DecodeStopsAtFirstPad := fun a b => decodeRest_append_pad a b B32.opened

/-- The fold leaves nothing to fold (R94). -/
theorem upcase_upcase : ∀ c : Byte, upcase (upcase c) = upcase c := by decide

theorem decodeFrom_map_upcase (t : List Byte) (acc : Byte) (fill : Fin 8) (out : List Byte) :
    decodeFrom (t.map upcase) acc fill out = decodeFrom t acc fill out := by
  induction t generalizing acc fill out with
  | nil => rfl
  | cons c t ih => simp only [List.map_cons, decodeFrom, upcase_upcase, ih]

/-- Settles O55: a text decodes as its folded form. -/
theorem decodeIgnoresCase : Obligations.DecodeIgnoresCase := fun t t' h =>
  calc decodeText t
    _ = decodeText (t.map upcase) := (decodeFrom_map_upcase t _ _ _).symm
    _ = decodeText (t'.map upcase) := by rw [h]
    _ = decodeText t' := decodeFrom_map_upcase t' _ _ _

/-! ## Texts of data symbols -/

/-- The output so far is never read: the rest of a decode goes on behind it. -/
theorem decodeFrom_append_out (t : List Byte) (acc : Byte) (fill : Fin 8) (o out : List Byte) :
    decodeFrom t acc fill (o ++ out) = (decodeFrom t acc fill out).map (o ++ ·) := by
  induction t generalizing acc fill out with
  | nil => rfl
  | cons c t ih =>
    simp only [decodeFrom]
    split
    · rfl
    · split
      · rfl
      · rw [List.append_assoc, ih]

/-- A text of data symbols does not end a decode: what follows it goes on from the bits it left. -/
theorem decodeRest_data_append {t : List Byte} (ht : ∀ c ∈ t, ∃ v, classify c = .data v) (u : B32) (h : u.UnfilledZero) :
    ∃ w : B32, w.UnfilledZero ∧ 8 * w.out.length + w.fill.val = 8 * u.out.length + u.fill.val + 5 * t.length ∧
      ∀ rest, u.decodeRest (t ++ rest) = w.decodeRest rest := by
  induction t generalizing u with
  | nil => exact ⟨u, h, rfl, fun _ => rfl⟩
  | cons c t ih =>
    obtain ⟨v, hc⟩ := ht c List.mem_cons_self
    obtain ⟨w, hw, hcount, hrest⟩ := ih (fun d hd => ht d (List.mem_cons_of_mem c hd)) (u.absorb v) (absorb_unfilledZero h v)
    refine ⟨w, hw, ?_, fun rest => (u.decodeRest_data _ hc).trans (hrest rest)⟩
    rw [hcount, absorb_bitCount, List.length_cons]
    omega

/-- With no bit valid the accumulator is empty (R26). -/
theorem B32.UnfilledZero.acc_eq_zero {u : B32} (h : u.UnfilledZero) (hfill : u.fill = 0) : u.acc = 0#8 := by
  unfold B32.UnfilledZero at h
  rw [hfill] at h
  exact BitVec.eq_of_toNat_eq ((Nat.mod_eq_of_lt u.acc.isLt).symm.trans h)

/-- Settles O56: `40j` bits are `5j` bytes and no bit over, so the accumulator is as at the start. -/
theorem decodeHasPeriodEight : Obligations.DecodeHasPeriodEight := by
  intro j t u hlen hdata
  obtain ⟨w, hw, hcount, hrest⟩ := decodeRest_data_append hdata B32.opened rfl
  have hstart : 8 * B32.opened.out.length + B32.opened.fill.val = 0 := rfl
  have hlt := w.fill.isLt
  have hfill : w.fill = 0 := Fin.ext (show w.fill.val = 0 by omega)
  have hacc : w.acc = 0#8 := hw.acc_eq_zero hfill
  refine ⟨w.out, ?whole, by omega, ?goesOn⟩
  case whole =>
    rw [decodeText_eq_decodeRest]
    simpa using hrest []
  case goesOn =>
    calc decodeText (t ++ u) = decodeFrom u w.acc w.fill w.out := hrest u
      _ = decodeFrom u 0#8 0 (w.out ++ []) := by rw [hacc, hfill, List.append_nil]
      _ = (decodeText u).map (w.out ++ ·) := decodeFrom_append_out u 0#8 0 w.out []

/-! ## The output as a bit string (R140, R141) -/

/-- What a decode leaves when it ends: as many bits as it consumed, which are the values in order. -/
theorem decodeRest_bits {t out : List Byte} {u : B32} (h : u.UnfilledZero) (hok : u.decodeRest t = .ok out) :
    ∃ w : B32, w.out = out ∧ w.UnfilledZero ∧
      8 * w.out.length + w.fill.val = 8 * u.out.length + u.fill.val + 5 * (consumed t).length ∧
      w.consumedBits = (consumedValues t).foldl (fun b v => b * 32 + v.toNat) u.consumedBits := by
  induction t generalizing u with
  | nil => exact ⟨u, Except.ok.inj hok, h, rfl, rfl⟩
  | cons c t ih =>
    cases hc : classify c with
    | pad =>
      rw [u.decodeRest_pad t hc] at hok
      refine ⟨u, Except.ok.inj hok, h, ?_, ?_⟩
      all_goals simp [consumedValues, consumed_pad t hc]
    | data v =>
      rw [u.decodeRest_data t hc] at hok
      obtain ⟨w, hout, hw, hcount, hbits⟩ := ih (absorb_unfilledZero h v) hok
      refine ⟨w, hout, hw, ?_, ?_⟩
      · rw [hcount, absorb_bitCount, consumed_not_pad t (by simp [hc]), List.length_cons]
        omega
      · rw [hbits, absorb_consumedBits h, consumedValues_data t hc, List.foldl_cons]
    | invalid => cases hok.symm.trans (u.decodeRest_invalid t hc)

theorem B32.validBits_lt (u : B32) : u.validBits < 2 ^ u.fill.val := by
  unfold B32.validBits
  rw [Nat.div_lt_iff_lt_mul (Nat.two_pow_pos _), ← pow_add, show u.fill.val + (8 - u.fill.val) = 8 by omega]
  exact u.acc.isLt

/-- Byte `k` of a big-endian number. -/
theorem bytesValue_getD {bytes : List Byte} {k : Nat} (hk : k < bytes.length) :
    bytesValue bytes / 256 ^ (bytes.length - 1 - k) % 256 = (bytes.getD k 0#8).toNat := by
  induction bytes using List.reverseRecOn with
  | nil => simp at hk
  | append_singleton bytes c ih =>
    rw [bytesValue_append_singleton, List.length_append, List.length_singleton]
    have hc := c.isLt
    by_cases hlast : k = bytes.length
    · rw [hlast]
      simp
      omega
    · have hlt : k < bytes.length := by simp at hk; omega
      have hshift : bytes.length + 1 - 1 - k = 1 + (bytes.length - 1 - k) := by omega
      have hdiv : (bytesValue bytes * 256 + c.toNat) / 256 = bytesValue bytes := by omega
      rw [hshift, pow_add, pow_one, ← Nat.div_div_eq_div_mul, hdiv, ih hlt, List.getD_append _ _ _ _ hlt]

/-- Settles O52: the valid bits left in `ACC` are dropped, and the others are the bytes of the output. -/
theorem decodedBytesAreTheBitString : Obligations.DecodedBytesAreTheBitString := by
  intro text out hok
  obtain ⟨w, rfl, -, hcount, hbits⟩ := decodeRest_bits (u := B32.opened) rfl hok
  have hstart : 8 * B32.opened.out.length + B32.opened.fill.val = 0 := rfl
  have hlt := w.fill.isLt
  have hvalue : bitString (consumedValues text) = bytesValue w.out * 2 ^ w.fill.val + w.validBits := hbits.symm
  refine ⟨by omega, fun k hk => ?_⟩
  have hplace : 5 * (consumed text).length - 8 - 8 * k = w.fill.val + 8 * (w.out.length - 1 - k) := by omega
  have hbytes : (bytesValue w.out * 2 ^ w.fill.val + w.validBits) / 2 ^ w.fill.val = bytesValue w.out := by
    rw [Nat.mul_comm, Nat.mul_add_div (Nat.two_pow_pos _), Nat.div_eq_of_lt w.validBits_lt, Nat.add_zero]
  calc (w.out.getD k 0#8).toNat
    _ = bytesValue w.out / 256 ^ (w.out.length - 1 - k) % 256 := (bytesValue_getD hk).symm
    _ = bitString (consumedValues text) / 2 ^ w.fill.val / 2 ^ (8 * (w.out.length - 1 - k)) % 256 := by
      rw [hvalue, hbytes, pow_mul, show 2 ^ 8 = 256 from rfl]
    _ = bitString (consumedValues text) / 2 ^ (5 * (consumed text).length - 8 - 8 * k) % 256 := by
      rw [hplace, Nat.div_div_eq_div_mul, ← pow_add]

end Sys2Proof.Machine
end

section
/-! The calls of a program, run step by step (30_encoding.md R104, R105, 70_reset_and_hazards.md R274). -/

namespace Sys2Proof.Machine

theorem run_succ {s t : State} (h : step s = .next t) (k : Nat) :
    Host.Core.run Sys2Proof.core (k + 1) s = Host.Core.run Sys2Proof.core k t := by
  have hcore : Sys2Proof.core.step s = .next t := h
  simp only [Host.Core.run, hcore]

/-! ## OTP calls: the host waits while the stages run -/

section
variable {s : State} {rest : List Event} (hwait : s.pending = .waitOtp :: rest)
include hwait

theorem run_finished (hp : s.otp.ph = .done ∨ s.otp.ph = .fail) :
    Host.Core.run Sys2Proof.core 1 s = .next (s.setPending rest) :=
  run_succ ((step_waitOtp hwait).trans (if_pos hp)) 0

theorem run_stage {u : Otp} (hbusy : s.otp.ph.busy = true) (hstage : otpStage s = .next (s.setOtp u)) (k : Nat) :
    Host.Core.run Sys2Proof.core (k + 1) s = Host.Core.run Sys2Proof.core k (s.setOtp u) := by
  have hunfinished : ¬(s.otp.ph = .done ∨ s.otp.ph = .fail) :=
    not_or.mpr ⟨OtpPhase.busy_ne_done hbusy, OtpPhase.busy_ne_fail hbusy⟩
  exact run_succ ((step_waitOtp hwait).trans ((if_neg hunfinished).trans hstage)) k

end

/-- With `k` digits to go, DIGIT runs `k` times and RENDER once (R164, R165). -/
theorem run_digits (k : Nat) {s : State} {rest : List Event} (hwait : s.pending = .waitOtp :: rest)
    (hp : s.otp.ph = .digit) (hi : s.otp.i.val + k = s.otp.n.toNat) (htraced : s.otp.Traced) (m : Nat) :
    ∃ u : Otp, u.ph = .done ∧ u.result = some (hotpCode Config.hmac s.otp.key s.otp.ctr s.otp.n.toNat) ∧
      Host.Core.run Sys2Proof.core (m + 1 + k) s = Host.Core.run Sys2Proof.core m (s.setOtp u) := by
  have hbusy : s.otp.ph.busy = true := congrArg OtpPhase.busy hp
  induction k generalizing s with
  | zero =>
    exact ⟨stageRender s.otp, rfl, (stageRender_traced htraced hp hi).result_is_hotp rfl,
      run_stage hwait hbusy (otpStage_render hp hi) m⟩
  | succ k ih =>
    have hlt : s.otp.i.val < s.otp.n.toNat := by omega
    have hnext : (s.otp.i.val + 1) + k = s.otp.n.toNat := by omega
    obtain ⟨u, hdone, hresult, hrun⟩ := ih (s := s.setOtp (stageDigit s.otp hlt)) hwait hp hnext
      (stageDigit_traced htraced hp hlt) hbusy
    exact ⟨u, hdone, hresult, (run_stage hwait hbusy (otpStage_digit hp hlt) (m + 1 + k)).trans hrun⟩

/-- An accepted call ends, with the wait, after ENC, HMAC, TRUNC, `N` times DIGIT and RENDER (R175, R274). -/
theorem run_openedCall {s : State} {rest : List Event} (hwait : s.pending = .waitOtp :: rest) (hp : s.otp.ph = .enc) :
    ∃ t : State, Host.Core.run Sys2Proof.core (5 + s.otp.n.toNat) s = .next t ∧
      t.otp.result = some (hotpCode Config.hmac s.otp.key s.otp.ctr s.otp.n.toNat) ∧
      t.b32 = s.b32 ∧ t.params = s.params ∧ t.pending = rest := by
  have henc : (stageEnc s.otp).Traced := stageEnc_traced s.otp
  have hhmac : (stageHmac (stageEnc s.otp)).Traced := stageHmac_traced henc rfl
  have htrunc : (stageTrunc (stageHmac (stageEnc s.otp))).Traced := stageTrunc_traced hhmac rfl
  obtain ⟨u, hdone, hresult, hrun⟩ := run_digits s.otp.n.toNat (s := s.setOtp (stageTrunc (stageHmac (stageEnc s.otp))))
    hwait rfl (Nat.zero_add _) htrunc 1
  refine ⟨(s.setOtp u).setPending rest, ?_, hresult, rfl, rfl, rfl⟩
  calc Host.Core.run Sys2Proof.core (5 + s.otp.n.toNat) s
    _ = Host.Core.run Sys2Proof.core (1 + 1 + s.otp.n.toNat + 1 + 1 + 1) s := by congr 1; omega
    _ = Host.Core.run Sys2Proof.core (1 + 1 + s.otp.n.toNat + 1 + 1) (s.setOtp (stageEnc s.otp)) :=
      run_stage hwait (congrArg OtpPhase.busy hp) (otpStage_enc hp) _
    _ = Host.Core.run Sys2Proof.core (1 + 1 + s.otp.n.toNat + 1) (s.setOtp (stageHmac (stageEnc s.otp))) :=
      run_stage (s := s.setOtp (stageEnc s.otp)) hwait rfl (otpStage_hmac rfl) _
    _ = Host.Core.run Sys2Proof.core (1 + 1 + s.otp.n.toNat) (s.setOtp (stageTrunc (stageHmac (stageEnc s.otp)))) :=
      run_stage (s := s.setOtp (stageHmac (stageEnc s.otp))) hwait rfl (otpStage_trunc rfl) _
    _ = Host.Core.run Sys2Proof.core 1 (s.setOtp u) := hrun
    _ = .next ((s.setOtp u).setPending rest) := run_finished (s := s.setOtp u) hwait (.inl hdone)

/-- A step that accepts a call, on a state `p` in which the host then waits, is followed by the call's stages. -/
theorem run_acceptedCall {s p : State} {key : List Byte} {ctr : Word64} {d : DigitLen} {rest : List Event}
    (hstep : step s = openCall key ctr d p) (hkey : withinCap p.params.keyCap key.length = true)
    (hwait : p.pending = .waitOtp :: rest) :
    ∃ t : State, Host.Core.run Sys2Proof.core (6 + d.toNat) s = .next t ∧
      t.otp.result = some (hotpCode Config.hmac key ctr d.toNat) ∧
      t.b32 = p.b32 ∧ t.params = p.params ∧ t.pending = rest := by
  obtain ⟨t, hrun, hcall⟩ :=
    run_openedCall (s := p.setOtp { p.otp.withdrawn with key := key, ctr := ctr, n := d, ph := .enc }) hwait rfl
  refine ⟨t, ?_, hcall⟩
  rw [show 6 + d.toNat = 5 + d.toNat + 1 by omega]
  exact (run_succ (hstep.trans (openCall_fits hkey)) _).trans hrun

/-- A step that turns a call away is followed by the end of the wait (R228). -/
theorem run_rejectedCall {s p : State} {rest : List Event} (hstep : step s = .next (raiseInvalidParameter p))
    (hwait : p.pending = .waitOtp :: rest) :
    ∃ t : State, Host.Core.run Sys2Proof.core 2 s = .next t ∧ t.otp.result = some (.error .invalidParameter) ∧
      t.b32 = p.b32 ∧ t.params = p.params ∧ t.pending = rest :=
  ⟨_, (run_succ hstep 1).trans (run_finished (s := raiseInvalidParameter p) hwait (.inr rfl)), rfl, rfl, rfl, rfl⟩

/-- Settles O49: the command's step accepts the call or turns it away, as the length is legal or not. -/
theorem hotpCallYieldsItsCode : Obligations.HotpCallYieldsItsCode := by
  intro s n ctr key rest hidle hkey
  have hstep := step_hotpEvent s n ctr key (.waitOtp :: rest)
  have hport : ((s.setPending (.waitOtp :: rest)).setBundle ⟨key.resolve s.b32, ctr, 0#64, 0#64, 0#64⟩).otp.ph.busy = false :=
    hidle
  cases hn : digitLen? n with
  | none =>
    have hlength := (digitLen?_eq_none_iff n).mp hn
    rw [if_neg hlength, hotpCode, if_neg hlength]
    have hcall := run_rejectedCall (hstep.trans (exec_otpHotp_invalid hport hn)) rfl
    exact hcall
  | some d =>
    have hlength := (digitLen?_eq_some_iff n d).mp hn
    rw [hlength, if_pos d.legal]
    have hcall := run_acceptedCall (hstep.trans (exec_otpHotp_valid hport hn)) hkey rfl
    exact hcall

/-- Settles O50: as O49, with the tests of R200; the counter latched is the exact quotient. -/
theorem totpCallYieldsItsCode : Obligations.TotpCallYieldsItsCode := by
  intro s t0 ivl now key rest hidle hkey
  have hstep := step_totpEvent s t0 ivl now key (.waitOtp :: rest)
  have hport : ((s.setPending (.waitOtp :: rest)).setBundle ⟨key.resolve s.b32, 0#64, t0, ivl, now⟩).otp.ph.busy = false :=
    hidle
  by_cases htests : ivl.toNat = 0 ∨ now.toNat < t0.toNat
  · rw [if_pos htests, totpCode, if_pos htests]
    have hcall := run_rejectedCall (hstep.trans (exec_otpTotp_invalid hport htests)) rfl
    exact hcall
  · obtain ⟨hivl, hnow⟩ := not_or.mp htests
    have ht : t0.toNat ≤ now.toNat := Nat.not_lt.mp hnow
    rw [if_neg htests, totpCode, if_neg htests, ← floorCounter_toNat ivl ht, BitVec.ofNat_toNat, BitVec.setWidth_eq]
    have hcall := run_acceptedCall (hstep.trans (exec_otpTotp_valid hport hivl ht)) hkey rfl
    exact hcall

/-! ## Decode calls: one push per symbol -/

/-- The event that ends the input of a decode (30_encoding.md R105). -/
abbrev endEvent : Event := .issue (commandWord 1#4 2#4 0#8) none

theorem step_pushEvent (s : State) (c : Byte) (rest : List Event) :
    step (s.setPending (pushEvent c :: rest)) = pushClass (classify c) (s.setPending rest) :=
  (step_issue (s := s.setPending (pushEvent c :: rest)) rfl (decodeCommand_pushWord c)).trans (exec_b32Push c _)

theorem step_endEvent (s : State) (rest : List Event) :
    step (s.setPending (endEvent :: rest)) = pushPad (s.setPending rest) :=
  step_issue (s := s.setPending (endEvent :: rest)) (i := .b32End) rfl rfl

/-- After the stop the rest of the text, and the end, change nothing (R144). -/
theorem run_text_stopped (t : List Byte) {s : State} (hp : s.b32.ph ≠ .run) (rest : List Event) (m : Nat) :
    Host.Core.run Sys2Proof.core (m + 1 + t.length) (s.setPending (t.map pushEvent ++ endEvent :: rest)) =
      Host.Core.run Sys2Proof.core m (s.setPending rest) := by
  induction t with
  | nil => exact run_succ ((step_endEvent s rest).trans (pushPad_stopped hp)) m
  | cons c t ih =>
    have hstep := step_pushEvent s c (t.map pushEvent ++ endEvent :: rest)
    exact (run_succ (hstep.trans (pushClass_stopped (s := s.setPending (t.map pushEvent ++ endEvent :: rest)) hp _)) _).trans ih

/-- With room for all it may emit, a text and its end leave the result of `decode` from the registers as they were. -/
theorem run_text (t : List Byte) {s : State} (hp : s.b32.ph = .run)
    (hcap : withinCap s.params.b32OutCap ((8 * s.b32.out.length + s.b32.fill.val + 5 * t.length) / 8) = true)
    (rest : List Event) (m : Nat) :
    ∃ u : B32, u.ph ≠ .run ∧ u.result = some (s.b32.decodeRest t) ∧
      Host.Core.run Sys2Proof.core (m + 1 + t.length) (s.setPending (t.map pushEvent ++ endEvent :: rest)) =
        Host.Core.run Sys2Proof.core m ((s.setB32 u).setPending rest) := by
  induction t generalizing s with
  | nil =>
    exact ⟨{ s.b32.discard with ph := .done }, nofun, rfl, run_succ ((step_endEvent s rest).trans (pushPad_run hp)) m⟩
  | cons c t ih =>
    have hstep := step_pushEvent s c (t.map pushEvent ++ endEvent :: rest)
    cases hc : classify c with
    | pad =>
      rw [hc] at hstep
      refine ⟨{ s.b32.discard with ph := .done }, nofun, ?_, ?_⟩
      · rw [s.b32.decodeRest_pad t hc]
        rfl
      · exact (run_succ (hstep.trans (pushPad_run hp)) _).trans
          (run_text_stopped t (s := s.setB32 { s.b32.discard with ph := .done }) nofun rest m)
    | invalid =>
      rw [hc] at hstep
      refine ⟨(raiseDecodeError s).b32, nofun, ?_, ?_⟩
      · rw [s.b32.decodeRest_invalid t hc]
        rfl
      · exact (run_succ (hstep.trans (pushInvalid_run hp)) _).trans
          (run_text_stopped t (s := raiseDecodeError s) nofun rest m)
    | data v =>
      rw [hc] at hstep
      have hroom : s.room := by
        by_cases hfill : s.b32.fill.val < 3
        · exact .inl hfill
        · exact .inr (withinCap_mono (by rw [List.length_cons]; omega) hcap)
      have hcap' : withinCap s.params.b32OutCap
          ((8 * (s.b32.absorb v).out.length + (s.b32.absorb v).fill.val + 5 * t.length) / 8) = true := by
        rw [absorb_bitCount]
        exact withinCap_mono (by rw [List.length_cons]; omega) hcap
      obtain ⟨u, hstop, hresult, hrun⟩ := ih (s := s.setB32 (s.b32.absorb v)) hp hcap'
      refine ⟨u, hstop, ?_, (run_succ (hstep.trans (pushData_room hp hroom)) _).trans hrun⟩
      rw [s.b32.decodeRest_data t hc]
      exact hresult

/-- Settles O51: START opens the decode, the text and its end stop it, and the wait goes on. -/
theorem decodeCallYieldsItsText : Obligations.DecodeCallYieldsItsText := by
  intro s text rest hcap
  have hcap' : withinCap s.params.b32OutCap ((8 * 0 + 0 + 5 * text.length) / 8) = true := by simpa using hcap
  obtain ⟨u, hstop, hresult, hrun⟩ := run_text text (s := s.setB32 B32.opened) rfl hcap' (.waitB32 :: rest) 1
  have hevents : (AsmLine.decode text).events ++ rest =
      .issue (commandWord 1#4 0#4 0#8) none :: (text.map pushEvent ++ endEvent :: .waitB32 :: rest) := by
    simp [AsmLine.events, decodeEvents]
  have hstart : step (s.setPending ((AsmLine.decode text).events ++ rest)) =
      .next ((s.setB32 B32.opened).setPending (text.map pushEvent ++ endEvent :: .waitB32 :: rest)) := by
    rw [hevents]
    exact step_issue (s := s.setPending _) (i := .b32Start) rfl rfl
  have hwait : step ((s.setB32 u).setPending (.waitB32 :: rest)) = .next ((s.setB32 u).setPending rest) :=
    (step_waitB32 (s := (s.setB32 u).setPending (.waitB32 :: rest)) rfl).trans (if_pos hstop)
  refine ⟨(s.setB32 u).setPending rest, ?_, hresult, rfl, rfl, rfl, rfl⟩
  rw [show text.length + 3 = 1 + 1 + text.length + 1 by omega]
  exact (run_succ hstart _).trans (hrun.trans (run_succ hwait 0))

end Sys2Proof.Machine
end
